-- ==== Sys2Proof/Word.lean ====
section
/-! DEFINITION. The word types of the block and their widths (00_scope.md rules R6 and R7). Every value is unsigned (R94). -/

namespace Sys2Proof

/-- A 32-bit bus word, count or command word (R6: `DATA_W`, `COUNT_W`). -/
abbrev Word := BitVec 32

/-- A 12-bit byte offset in the register window (R6: `ADDR_W`). -/
abbrev Addr := BitVec 12

/-- A symbol value 0..255 (R6: `SYM_W`). -/
abbrev Sym := BitVec 8

/-- A node index 0..510 (R6: `IDX_W`). -/
abbrev NodeIdx := BitVec 9

/-- The 40-bit SEED accumulator (R6: `SUM_W`). -/
abbrev Sum40 := BitVec 40

/-- The 256-bit code register (R6: `MAX_CODE`, R37). -/
abbrev CodeReg := BitVec 256

/-- The four byte enables an integrating bus may carry (R63). -/
abbrev ByteEn := BitVec 4

end Sys2Proof
end

