-- ==== Sys2Proof/Config.lean ====
section
/-! DEFINITION. What is fixed for the hardware (00_scope.md rule R6), the platform's parameters, and the free values. -/

namespace Sys2Proof

/-- R6 `NSYM`: the number of symbols. -/
abbrev Config.nsym : Nat := 256

/-- R6 `MAX_LEAF`: at most one leaf per symbol. -/
abbrev Config.maxLeaf : Nat := 256

/-- R6 `MAX_NODE` = 2 * `MAX_LEAF` - 1: the records of the node arena. -/
abbrev Config.maxNode : Nat := 511

/-- R6 `MAX_ACT`: the most members the Active Set holds. -/
abbrev Config.maxAct : Nat := 256

/-- R6 `MAX_CODE`: the most bits a code has. -/
abbrev Config.maxCode : Nat := 255

/-- R21: the identification constant, ASCII "HUF1". -/
abbrev Config.idValue : Word := 0x48554631

/-- R106: the largest table total that does not overflow. -/
abbrev Config.maxTotal : Sum40 := 0x00FFFFFFFF

/-- R47, U10: what the k-th free read of a run returns.
DESIGN CHOICE (log 3): a constant with no body, applied to `State.draws`; nothing constrains its values. -/
opaque Config.freeRead : Nat → Word

/-- R60, U16: the platform parameter `BASE`, the window's system address. It has no value here. -/
opaque Config.base : Nat

/-- R191, U15: the integrator's parameter `RST_ACTIVE_LOW`. It has no value here. -/
opaque Config.rstActiveLow : Bool

end Sys2Proof
end

