-- ==== Sys2Proof/Machine/State.lean ====
section
/-! DEFINITION. The state of the block, of its host bus and of its reset line, as plain data (10_state.md, 70_reset_and_hazards.md rule R190), and the reasons a step can stop. -/

namespace Sys2Proof.Machine

open Sys2Proof

/-- R45: the builder phase, shown as STATUS.PHASE. -/
inductive Phase where
  /-- 0: no tree and no seeding. -/
  | none
  /-- 1: the Active Set has 2 or more members and merges remain. -/
  | seeded
  /-- 2: exactly one member remains, and `root` names it. -/
  | tree
  /-- 3: the last SEED or BUILD found every FREQ entry zero. -/
  | empty
  deriving DecidableEq, Repr

/-- R160: the error codes that are ever produced. Codes 5 to 15 are reserved and have no name here (U23). -/
inductive ErrCode where
  /-- 0: no error recorded. -/
  | none
  /-- 1: an illegal command word completed. -/
  | illegalCmd
  /-- 2: a bus write was dropped during a pending command. -/
  | busy
  /-- 3: a command out of order. -/
  | sequence
  /-- 4: the FREQ total exceeds 0xFFFFFFFF. -/
  | overflow
  deriving DecidableEq, Repr

/-- R42: a node record, the source's tagged variant. -/
inductive Node where
  | leaf (sym : Sym) (count : Word)
  | internal (count : Word) (left right : NodeIdx)
  deriving DecidableEq, Repr

/-- R143: one (symbol, code, count) triple of the leaf sequence. The code's head is the choice at the root, `true` means right. -/
structure Triple where
  sym : Sym
  code : List Bool
  count : Word
  deriving DecidableEq, Repr

/-- R61: a bus response. -/
inductive Resp where
  | ok
  | err
  deriving DecidableEq, Repr

/-- R61, R63: a host bus transaction, with the byte enables an integrating bus may carry (all four on a bus without them). -/
inductive BusOp where
  | read (addr : Addr) (be : ByteEn)
  | write (addr : Addr) (be : ByteEn) (wdata : Word)
  deriving DecidableEq, Repr

/-- R61: what a transaction returns to the host. -/
inductive Answer where
  | read (rdata : Word) (resp : Resp)
  | write (resp : Resp)
  deriving DecidableEq, Repr

/-- R12, R70, R191: one turn of the total order of steps. -/
inductive Input where
  /-- The host performs a transaction. -/
  | bus (op : BusOp)
  /-- The engine takes its turn: it completes the pending command if there is one. -/
  | engine
  /-- The reset line becomes asserted (`true`) or deasserted (`false`). -/
  | rst (asserted : Bool)
  deriving DecidableEq, Repr

/-- The whole machine. Fields down to `actSel` are the block's, named by 10_state.md; `rst` is its reset input; the last three are the host's side and the model's own. -/
structure State where
  /-- R40: `FREQ[0..255]`. -/
  freq : Vector Word 256
  /-- R42: the allocated records `nodes[0..nnode-1]`; `nnode` is this list's length (log 2). -/
  nodes : List Node
  /-- R44: the Active Set in its order. -/
  act : List NodeIdx
  /-- R26: leaves the last SEED or BUILD created. -/
  nleaf : BitVec 9
  /-- R30: the root's index in phase TREE, else 0. -/
  root : NodeIdx
  /-- R31: the FREQ total of the last SEED or BUILD that did not overflow. -/
  total : Word
  /-- R45. -/
  phase : Phase
  /-- R46: STATUS.EXT_ACTIVE. -/
  extActive : Bool
  /-- R46: STATUS.EXT_VALID. -/
  extValid : Bool
  /-- R46: STATUS.EXT_END. -/
  extEnd : Bool
  /-- R33, R46: triples produced since EXT_START, 0..256. -/
  extIdx : BitVec 9
  /-- R34. -/
  outSym : Sym
  /-- R35. -/
  outLen : BitVec 8
  /-- R36. -/
  outCount : Word
  /-- R37: path bit j at bit j. -/
  outCode : CodeReg
  /-- R29: STATUS.BUSY. -/
  busy : Bool
  /-- R29: the accepted command word, meaningful while `busy`. -/
  pending : Word
  /-- R49: STATUS.DONE. -/
  done : Bool
  /-- R49: STATUS.ERR. -/
  err : Bool
  /-- R49: STATUS.ERRCODE. -/
  errcode : ErrCode
  /-- R32, R49: ERRINFO. -/
  errinfo : Word
  /-- R22, R49: CTRL.IE_DONE. -/
  ieDone : Bool
  /-- R22, R49: CTRL.IE_ERR. -/
  ieErr : Bool
  /-- R38, R49. -/
  nodeSel : NodeIdx
  /-- R41, R49. -/
  actSel : BitVec 9
  /-- R191: the reset input is asserted. -/
  rst : Bool
  /-- R12, R70: the turns still to come, next first (log 1). -/
  inputs : List Input
  /-- R61: what the last transaction returned to the host (log 4). -/
  answer : Option Answer
  /-- The model's own counter of free reads (log 3). -/
  draws : Nat
  deriving DecidableEq, Repr

/-- Why a step stops with a fault. Both are SAFE: they stand for preconditions the spec states and no run from reset breaks (log 5). -/
inductive Fault where
  /-- MergeOnce was entered outside its precondition (R109, R131): fewer than two members in `act`, a member that is no
  allocated node, or a full arena. Raised by MERGE only. Safe. -/
  | mergePrecondition
  /-- The leaf sequence of R143 does not exist: a child index names no allocated node, or the recursion does not end.
  Raised by EXT_NEXT only. Safe. -/
  | leafSequenceUndefined
  deriving DecidableEq, Repr

/-- Why a step gives no meaning. -/
inductive Refusal where
  /-- An instruction with no meaning yet; no arm of `exec` answers it. Safe. -/
  | notModelled (mnemonic : String)
  /-- A bus transaction while `rst` is asserted (R191, U14: "refuse"). Raised by the host's turn only, by no command. Safe. -/
  | busDuringReset
  deriving DecidableEq, Repr

/-- R190: the block right after reset. `nodes` has no allocated record, so the arena's unspecified contents have no place here. -/
def State.reset : State where
  freq := Vector.replicate 256 0
  nodes := []
  act := []
  nleaf := 0
  root := 0
  total := 0
  phase := .none
  extActive := false
  extValid := false
  extEnd := false
  extIdx := 0
  outSym := 0
  outLen := 0
  outCount := 0
  outCode := 0
  busy := false
  pending := 0
  done := false
  err := false
  errcode := .none
  errinfo := 0
  ieDone := false
  ieErr := false
  nodeSel := 0
  actSel := 0
  rst := false
  inputs := []
  answer := Option.none
  draws := 0

end Sys2Proof.Machine
end

