-- ==== Sys2Proof/Machine/Operands.lean ====
section
/-! DEFINITION. The commands' operands, all implicit (30_encoding.md rule R87): the FREQ table as SEED and BUILD read it, the node arena as MERGE reads it, and the leaf sequence as EXT_NEXT reads it. -/

namespace Sys2Proof.Machine

open Sys2Proof

/-- R27: the number of allocated nodes, 10 bits. -/
def State.nnode (s : State) : BitVec 10 := BitVec.ofNat 10 s.nodes.length

/-- R42: the count of a node. -/
def Node.count : Node → Word
  | .leaf _ c => c
  | .internal c _ _ => c

/-- R42: the allocated node at an index, if there is one. -/
def nodeAt (nodes : List Node) (i : NodeIdx) : Option Node := nodes[i.toNat]?

/-- The counts `nodes[act[i]].count` in the order of `act`, if every member is an allocated node (R130). -/
def countsOf (nodes : List Node) : List NodeIdx → Option (List Word)
  | [] => some []
  | x :: xs =>
    match nodeAt nodes x, countsOf nodes xs with
    | some n, some cs => some (n.count :: cs)
    | _, _ => none

/-- R103: the sum of all FREQ entries in the 40-bit accumulator, in ascending symbol order. -/
def freqSum (freq : Vector Word 256) : Sum40 :=
  freq.toList.foldl (fun sum c => sum + c.setWidth 40) 0

/-- R105: one leaf for each nonzero count of `cs`, in order; the first count of `cs` is symbol `s`'s. -/
def leavesFrom (s : Nat) : List Word → List Node
  | [] => []
  | c :: cs =>
    if c = 0 then leavesFrom (s + 1) cs
    else .leaf (BitVec.ofNat 8 s) c :: leavesFrom (s + 1) cs

/-- R103, R105: the leaves a table seeds, in ascending symbol order. -/
def seedLeaves (freq : Vector Word 256) : List Node := leavesFrom 0 freq.toList

/-- R105: the Active Set `[0, 1, ..., n-1]` that seeding `n` leaves leaves. -/
def seedAct (n : Nat) : List NodeIdx := (List.range n).map (BitVec.ofNat 9)

/-- R143: `LeavesAt(n, path)`. The recursion is on `fuel`, which bounds the nodes of one path; it is `none` where the spec's
recursion meets an index that is not allocated, or does not end within `fuel` nodes. -/
def leavesAt (nodes : List Node) : Nat → NodeIdx → List Bool → Option (List Triple)
  | 0, _, _ => none
  | fuel + 1, n, path =>
    match nodeAt nodes n with
    | none => none
    | some (.leaf sym c) => some [⟨sym, path, c⟩]
    | some (.internal _ l r) =>
      match leavesAt nodes fuel l (path ++ [false]), leavesAt nodes fuel r (path ++ [true]) with
      | some ls, some rs => some (ls ++ rs)
      | _, _ => none

/-- R143, R144: `Seq`. A path without a cycle visits at most `nnode` nodes, so that much fuel loses no sequence. -/
def State.seq (s : State) : Option (List Triple) :=
  match s.phase with
  | .tree => leavesAt s.nodes s.nodes.length s.root []
  | _ => some []

/-- R142, R37: the code register of a path: path bit j at bit j, every higher bit 0. -/
def codeReg : List Bool → CodeReg
  | [] => 0
  | b :: bs => (codeReg bs <<< 1) ||| (if b then 1 else 0)

end Sys2Proof.Machine
end

