-- ==== Sys2Proof/Machine/Flags.lean ====
section
/-! DEFINITION. The status fields and the interrupt output (10_state.md rules R22, R23, R45; 60_exceptions.md rules R160, R170; 40_tree_builder.md rule R107). -/

namespace Sys2Proof.Machine

open Sys2Proof

/-- R45: the value of STATUS.PHASE. -/
def Phase.bits : Phase → BitVec 2
  | .none => 0
  | .seeded => 1
  | .tree => 2
  | .empty => 3

/-- R160: the value of STATUS.ERRCODE. -/
def ErrCode.bits : ErrCode → BitVec 4
  | .none => 0
  | .illegalCmd => 1
  | .busy => 2
  | .sequence => 3
  | .overflow => 4

/-- R107: the phase after seeding `n` leaves. -/
def phaseAfterSeed : Nat → Phase
  | 0 => .empty
  | 1 => .tree
  | _ => .seeded

/-- R23: STATUS [9:3] as stored: PHASE, two reserved zeros, EXT_END, EXT_VALID, EXT_ACTIVE. -/
def State.statusMid (s : State) : BitVec 7 :=
  s.phase.bits ++ (0 : BitVec 2) ++ BitVec.ofBool s.extEnd ++ BitVec.ofBool s.extValid ++ BitVec.ofBool s.extActive

/-- R23: STATUS with the given bits [9:3]; the other bits are as stored. -/
def State.statusWith (s : State) (mid : BitVec 7) : Word :=
  (0 : BitVec 16) ++ s.errcode.bits ++ (0 : BitVec 2) ++ mid ++
    BitVec.ofBool s.err ++ BitVec.ofBool s.done ++ BitVec.ofBool s.busy

/-- R23: STATUS as stored. -/
def State.status (s : State) : Word := s.statusWith s.statusMid

/-- R22: CTRL as stored. -/
def State.ctrl (s : State) : Word :=
  (0 : BitVec 30) ++ BitVec.ofBool s.ieErr ++ BitVec.ofBool s.ieDone

/-- R170: the level interrupt output, combinational on the stored bits. -/
def State.irq (s : State) : Bool := (s.ieDone && s.done) || (s.ieErr && s.err)

end Sys2Proof.Machine
end

