-- ==== Sys2Proof/Machine/Ops.lean ====
section
/-! DEFINITION. The shared operations: recording an error (60_exceptions.md rule R165), completing a command (30_encoding.md rule R84), reset (70_reset_and_hazards.md rule R191), clearing the extractor (R100), and FREQ writes (R40). The block has no trap and no return from one (R168, R169). -/

namespace Sys2Proof.Machine

open Sys2Proof

/-- R165: `raise Error(code, info)`. The first error wins. What raises it then ends (R10). -/
def raiseError (code : ErrCode) (info : Word) (s : State) : State :=
  if s.err then s else { s with err := true, errcode := code, errinfo := info }

/-- R84: what the engine's step does after `Execute(pending)`. -/
def complete (s : State) : State := { s with busy := false, done := true }

/-- R83: an accepted CMD write. -/
def issue (w : Word) (s : State) : State := { s with busy := true, pending := w }

/-- R191: every piece of state at its R190 value while `rst` is asserted. The turns to come, the host's last answer and the
draw counter are not the block's. -/
def holdReset (s : State) : State :=
  { State.reset with rst := true, inputs := s.inputs, answer := s.answer, draws := s.draws }

/-- R100: `ExtClear()`. -/
def extClear (s : State) : State :=
  { s with
    extActive := false, extValid := false, extEnd := false, extIdx := 0
    outSym := 0, outLen := 0, outCount := 0, outCode := 0 }

/-- R40: `FREQ[sym] <- w`. -/
def writeFreq (sym : Sym) (w : Word) (s : State) : State :=
  { s with freq := s.freq.set sym.toNat w sym.isLt }

/-- R40: `FREQ[sym]`. -/
def readFreq (s : State) (sym : Sym) : Word := s.freq[sym.toNat]'sym.isLt

/-- R102: every FREQ entry 0. -/
def clearFreqTable (s : State) : State := { s with freq := Vector.replicate 256 0 }

end Sys2Proof.Machine
end

