-- ==== Sys2Proof/Machine/Bus.lean ====
section
/-! DEFINITION. The host bus: the register map, reads, writes and the transaction (10_state.md rules R20 to R49, 20_memory.md rules R60 to R68). -/

namespace Sys2Proof.Machine

open Sys2Proof

/-- R20: the registers of the window. `reserved` stands for every offset the map does not list (R48). -/
inductive Reg where
  | id
  | ctrl
  | status
  | cmd
  | nleaf
  | nnode
  | actlen
  | root
  | total
  | errinfo
  | extIdx
  | outSym
  | outLen
  | outCount
  | outCode (k : BitVec 3)
  | nodeSel
  | nodeInfo
  | nodeCount
  | actSel
  | actEntry
  | freq (sym : Sym)
  | reserved
  deriving DecidableEq, Repr

/-- R20: the offset of a listed register. -/
def Reg.offset : Reg → Option Addr
  | .id => some 0x000
  | .ctrl => some 0x004
  | .status => some 0x008
  | .cmd => some 0x00C
  | .nleaf => some 0x010
  | .nnode => some 0x014
  | .actlen => some 0x018
  | .root => some 0x01C
  | .total => some 0x020
  | .errinfo => some 0x024
  | .extIdx => some 0x028
  | .outSym => some 0x030
  | .outLen => some 0x034
  | .outCount => some 0x038
  | .outCode k => some (0x040 + 4 * k.setWidth 12)
  | .nodeSel => some 0x060
  | .nodeInfo => some 0x064
  | .nodeCount => some 0x068
  | .actSel => some 0x06C
  | .actEntry => some 0x070
  | .freq sym => some (0x400 + 4 * sym.setWidth 12)
  | .reserved => none

/-- R62: the offset is a multiple of 4. -/
def aligned (a : Addr) : Bool := a.extractLsb' 0 2 = 0

/-- R20: the register at an aligned offset. -/
def regAt (a : Addr) : Reg :=
  if a.extractLsb' 10 2 = 1 then .freq (a.extractLsb' 2 8)
  else if a.extractLsb' 5 7 = 2 then .outCode (a.extractLsb' 2 3)
  else if a = 0x000 then .id
  else if a = 0x004 then .ctrl
  else if a = 0x008 then .status
  else if a = 0x00C then .cmd
  else if a = 0x010 then .nleaf
  else if a = 0x014 then .nnode
  else if a = 0x018 then .actlen
  else if a = 0x01C then .root
  else if a = 0x020 then .total
  else if a = 0x024 then .errinfo
  else if a = 0x028 then .extIdx
  else if a = 0x030 then .outSym
  else if a = 0x034 then .outLen
  else if a = 0x038 then .outCount
  else if a = 0x060 then .nodeSel
  else if a = 0x064 then .nodeInfo
  else if a = 0x068 then .nodeCount
  else if a = 0x06C then .actSel
  else if a = 0x070 then .actEntry
  else .reserved

/-- R39: NODE_INFO of an allocated node. -/
def Node.info : Node → Word
  | .leaf sym _ => (1 : BitVec 1) ++ (0 : BitVec 1) ++ (0 : BitVec 4) ++ sym ++ (0 : BitVec 9) ++ (0 : BitVec 9)
  | .internal _ l r => (1 : BitVec 1) ++ (1 : BitVec 1) ++ (0 : BitVec 4) ++ (0 : BitVec 8) ++ r ++ l

/-- R39: NODE_INFO, combinational on `node_sel`. -/
def State.nodeInfo (s : State) : Word :=
  match nodeAt s.nodes s.nodeSel with
  | some n => n.info
  | none => 0

/-- R39: NODE_COUNT, combinational on `node_sel`. -/
def State.nodeCount (s : State) : Word :=
  match nodeAt s.nodes s.nodeSel with
  | some n => n.count
  | none => 0

/-- R41: ACT_ENTRY, combinational on `act_sel`. -/
def State.actEntry (s : State) : Word :=
  match s.act[s.actSel.toNat]? with
  | some x => (1 : BitVec 1) ++ (0 : BitVec 22) ++ x
  | none => 0

/-- R37: OUT_CODEk, the k-th 32-bit word of `out_code`, least significant first. -/
def State.outCodeWord (s : State) (k : BitVec 3) : Word := s.outCode.extractLsb' (32 * k.toNat) 32

/-- R65: the stored value of each register, as 10_state.md defines it. -/
def readStored (s : State) : Reg → Word
  | .id => Config.idValue
  | .ctrl => s.ctrl
  | .status => s.status
  | .cmd => 0
  | .nleaf => s.nleaf.setWidth 32
  | .nnode => s.nnode.setWidth 32
  | .actlen => BitVec.ofNat 32 s.act.length
  | .root => s.root.setWidth 32
  | .total => s.total
  | .errinfo => s.errinfo
  | .extIdx => s.extIdx.setWidth 32
  | .outSym => s.outSym.setWidth 32
  | .outLen => s.outLen.setWidth 32
  | .outCount => s.outCount
  | .outCode k => s.outCodeWord k
  | .nodeSel => s.nodeSel.setWidth 32
  | .nodeInfo => s.nodeInfo
  | .nodeCount => s.nodeCount
  | .actSel => s.actSel.setWidth 32
  | .actEntry => s.actEntry
  | .freq sym => readFreq s sym
  | .reserved => 0

/-- How much of a register a read returns exactly while `busy` (R47). -/
inductive BusyRead where
  /-- The exact stored value. -/
  | exact
  /-- STATUS: the exact bits but for [9:3]. -/
  | statusOnly
  /-- Any value. -/
  | any
  deriving DecidableEq, Repr

/-- R47: the list of registers whose reads are exact while `busy`; a reserved offset reads 0 at all times (R48, log 6). -/
def Reg.busyRead : Reg → BusyRead
  | .id => .exact
  | .ctrl => .exact
  | .status => .statusOnly
  | .cmd => .exact
  | .nleaf => .any
  | .nnode => .any
  | .actlen => .any
  | .root => .any
  | .total => .any
  | .errinfo => .exact
  | .extIdx => .any
  | .outSym => .any
  | .outLen => .any
  | .outCount => .any
  | .outCode _ => .any
  | .nodeSel => .exact
  | .nodeInfo => .any
  | .nodeCount => .any
  | .actSel => .exact
  | .actEntry => .any
  | .freq _ => .any
  | .reserved => .exact

/-- R47, R65: the value a read returns, `free` being this read's free draw. -/
def readReg (s : State) (free : Word) (r : Reg) : Word :=
  if s.busy then
    match r.busyRead with
    | .exact => readStored s r
    | .statusOnly => s.statusWith (free.extractLsb' 3 7)
    | .any => free
  else readStored s r

/-- Whether a read takes a free draw (log 3). -/
def takesDraw (s : State) (r : Reg) : Bool := s.busy && (r.busyRead ≠ .exact)

/-- R61, R62, R65: `BusRead(addr)`. Byte enables do not change it (R63). -/
def busRead (a : Addr) (s : State) : State :=
  if aligned a then
    { s with
      answer := some (.read (readReg s (Config.freeRead s.draws) (regAt a)) .ok)
      draws := if takesDraw s (regAt a) then s.draws + 1 else s.draws }
  else { s with answer := some (.read 0 .err) }

/-- R23: a STATUS write. Bit 1 clears `done`; bit 2 clears `err`, `errcode` and `errinfo`. -/
def writeStatus (w : Word) (s : State) : State :=
  let s1 := if w.getLsbD 1 then { s with done := false } else s
  if w.getLsbD 2 then { s1 with err := false, errcode := .none, errinfo := 0 } else s1

/-- R64: the write dispatch for an aligned offset. -/
def writeReg (a : Addr) (w : Word) (s : State) : State :=
  match regAt a with
  | .ctrl => { s with ieDone := w.getLsbD 0, ieErr := w.getLsbD 1 }
  | .status => writeStatus w s
  | .cmd => if s.busy then raiseError .busy (a.setWidth 32) s else issue w s
  | .nodeSel => if s.busy then raiseError .busy (a.setWidth 32) s else { s with nodeSel := w.extractLsb' 0 9 }
  | .actSel => if s.busy then raiseError .busy (a.setWidth 32) s else { s with actSel := w.extractLsb' 0 9 }
  | .freq sym => if s.busy then raiseError .busy (a.setWidth 32) s else writeFreq sym w s
  | .id | .nleaf | .nnode | .actlen | .root | .total | .errinfo | .extIdx | .outSym | .outLen | .outCount
  | .outCode _ | .nodeInfo | .nodeCount | .actEntry | .reserved => s

/-- R61 to R64: `BusWrite(addr, wdata)`. A misaligned write, or one without all four byte enables, has no effect. -/
def busWrite (a : Addr) (be : ByteEn) (w : Word) (s : State) : State :=
  if aligned a && be == 0xF then { writeReg a w s with answer := some (.write .ok) }
  else { s with answer := some (.write .err) }

/-- R61: one transaction, one atomic step. -/
def busStep : BusOp → State → State
  | .read a _, s => busRead a s
  | .write a be w, s => busWrite a be w s

/-- R60: the window offset of a system byte address, for a window at `base`. -/
def windowOffset (base sysAddr : Nat) : Option Addr :=
  if base ≤ sysAddr ∧ sysAddr < base + 4096 then some (BitVec.ofNat 12 (sysAddr - base)) else none

/-- R66: the byte at system address `BASE + addr + b`, the lanes little-endian. -/
def laneByte (rdata : Word) (b : BitVec 2) : BitVec 8 := rdata.extractLsb' (8 * b.toNat) 8

/-- R191: the reset line's turn for a level of the `rst` pin, its polarity the integrator's parameter. -/
def rstPin (activeLow level : Bool) : Input := .rst (level != activeLow)

end Sys2Proof.Machine
end

