-- ==== Sys2Proof/Syntax.lean ====
section
/-! DEFINITION. The commands: one constructor per row of spec/opcode_table.json (30_encoding.md rule R81). No command carries an operand (R87). -/

namespace Sys2Proof

/-- A command of the block, its equivalent of an instruction (R1, R81). -/
inductive Instr where
  /-- NOP, word 0x00000000 (R101). -/
  | nop
  /-- CLEAR_FREQ, word 0x00000001 (R102). -/
  | clearFreq
  /-- SEED, word 0x00000002 (R104). -/
  | seed
  /-- MERGE, word 0x00000003 (R108). -/
  | merge
  /-- BUILD, word 0x00000004 (R112). -/
  | build
  /-- EXT_START, word 0x00000005 (R141). -/
  | extStart
  /-- EXT_NEXT, word 0x00000006 (R142). -/
  | extNext
  deriving DecidableEq, Repr

end Sys2Proof
end

