-- ==== Sys2Proof/WellFormed.lean ====
section
/-! DEFINITION. Which commands and which command words are well formed (30_encoding.md rules R80, R82, R87). -/

namespace Sys2Proof

/-- R87: no command carries an operand, a register field or an immediate, so a command as syntax is always well formed. -/
def Instr.wellFormed : Instr → Bool
  | .nop => true
  | .clearFreq => true
  | .seed => true
  | .merge => true
  | .build => true
  | .extStart => true
  | .extNext => true

/-- R80: the reserved field `ZERO`, bits [31:4], must be 0. -/
def WordCheck.zeroOk (w : Word) : Bool := w.toNat < 16

/-- R82: `OP`, bits [3:0], is one of 0x0 to 0x6. -/
def WordCheck.opOk (w : Word) : Bool := w.toNat % 16 < 7

/-- R82: a word is a legal command word when both of its fields are. -/
def wordWellFormed (w : Word) : Bool := WordCheck.zeroOk w && WordCheck.opOk w

end Sys2Proof
end

