-- ==== Sys2Proof/Decode.lean ====
section
/-! DEFINITION. The command decoder, total on any 32-bit word, and the encoder (30_encoding.md rules R80 to R82, R86). -/

namespace Sys2Proof

/-- Why a command word is illegal (R82). Both are recorded as ILLEGAL_CMD (R85). -/
inductive Reject where
  /-- A bit of [31:4] is set, whatever `OP` is. -/
  | zeroFieldSet
  /-- `OP` is in 0x7..0xF. -/
  | reservedOp
  deriving DecidableEq, Repr

/-- R80: the field `OP`, bits [3:0]. -/
def opField (w : Word) : BitVec 4 := w.extractLsb' 0 4

/-- R80: the field `ZERO`, bits [31:4]. -/
def zeroField (w : Word) : BitVec 28 := w.extractLsb' 4 28

/-- R81: the command an `OP` value selects when `ZERO` is 0. -/
def instrOfOp (op : BitVec 4) : Except Reject Instr :=
  match op.toNat with
  | 0 => .ok .nop
  | 1 => .ok .clearFreq
  | 2 => .ok .seed
  | 3 => .ok .merge
  | 4 => .ok .build
  | 5 => .ok .extStart
  | 6 => .ok .extNext
  | _ => .error .reservedOp

/-- R85, R86: one 32-bit word, decoded from the word alone. The `ZERO` field is checked first. -/
def decode (w : Word) : Except Reject Instr :=
  if zeroField w = 0 then instrOfOp (opField w) else .error .zeroFieldSet

/-- R81: the `OP` value of a command. -/
def opOf : Instr → BitVec 4
  | .nop => 0x0
  | .clearFreq => 0x1
  | .seed => 0x2
  | .merge => 0x3
  | .build => 0x4
  | .extStart => 0x5
  | .extNext => 0x6

/-- R80, R81: the command word, `ZERO` = 0 above `OP`. -/
def encode (i : Instr) : Word := (0 : BitVec 28) ++ opOf i

/-- The host's view of the decoder: the low `nbits` bits of `w` are the command word (R86: one 32-bit word), all higher bits 0. -/
def decodeTableWord (nbits w : Nat) : Option Instr :=
  match decode (BitVec.ofNat 32 (w % 2 ^ nbits)) with
  | .ok i => some i
  | .error _ => none

end Sys2Proof
end

