-- ==== Sys2Proof/Machine/Selector.lean ====
section
/-! DEFINITION. The priority_node_selector: the least-count member of the Active Set, the earliest on a tie (41_priority_node_selector.md). -/

namespace Sys2Proof.Machine

open Sys2Proof

/-- R131: the least of the counts `c :: cs`, compared as unsigned numbers. -/
def minCount (c : Word) : List Word → Word
  | [] => c
  | d :: ds => let m := minCount d ds; if m.toNat < c.toNat then m else c

/-- R131: `min { i | counts[i] = m }`, the earliest position that holds `m` (the length where none does). -/
def firstPos (m : Word) : List Word → Nat
  | [] => 0
  | c :: cs => if c = m then 0 else firstPos m cs + 1

/-- R131: the position SelectRemove selects in a list of counts; none in the empty list. -/
def selectPos : List Word → Option Nat
  | [] => none
  | c :: cs => some (firstPos (minCount c cs) (c :: cs))

/-- R131: `SelectRemove()` on an Active Set: the member selected and the Active Set left. `none` where its precondition fails. -/
def selectRemove (nodes : List Node) (act : List NodeIdx) : Option (NodeIdx × List NodeIdx) :=
  match countsOf nodes act with
  | none => none
  | some counts =>
    match selectPos counts with
    | none => none
    | some p =>
      match act[p]? with
      | none => none
      | some x => some (x, act.eraseIdx p)

/-- R132: the reference scan over the counts from position `i` on, `best` holding `bestCount`; strict `<`, ties never update. -/
def scanFrom (best : Nat) (bestCount : Word) (i : Nat) : List Word → Nat
  | [] => best
  | c :: cs => if c.toNat < bestCount.toNat then scanFrom i c (i + 1) cs else scanFrom best bestCount (i + 1) cs

/-- R132: the reference scan of a nonempty list of counts. -/
def scanPos : List Word → Option Nat
  | [] => none
  | c :: cs => some (scanFrom 0 c 1 cs)

/-- R135: the 41-bit key: the count in the high 32 bits, the node index in the low 9. -/
def selKey (count : Word) (x : NodeIdx) : BitVec 41 := count ++ x

end Sys2Proof.Machine
end

