-- ==== Sys2Proof/Machine/Builder.lean ====
section
/-! DEFINITION. The tree builder commands NOP, CLEAR_FREQ, SEED, MERGE and BUILD (40_tree_builder.md). -/

namespace Sys2Proof.Machine

open Sys2Proof

/-- R103, first lines: the earlier tree and the extractor are discarded before the sum is checked. -/
def seedClear (s : State) : State :=
  extClear { s with nodes := [], nleaf := 0, act := [], root := 0, total := 0, phase := .none }

/-- R103, after the check: the leaves of the table, the Active Set of all of them, and the phase of R107. -/
def seedTable (s : State) : State :=
  { s with
    total := (freqSum s.freq).setWidth 32
    nodes := seedLeaves s.freq
    act := seedAct (seedLeaves s.freq).length
    nleaf := BitVec.ofNat 9 (seedLeaves s.freq).length
    root := 0
    phase := phaseAfterSeed (seedLeaves s.freq).length }

/-- R103: `SeedBody(w)`, with the overflow check of R106. -/
def seedBody (w : Word) (s : State) : State :=
  if Config.maxTotal < freqSum s.freq then raiseError .overflow w (seedClear s)
  else seedTable (seedClear s)

/-- R109, second half: the new internal node over `a` and `b`, appended to the arena and to the end of `act`, and R110. -/
def joinNodes (a b : NodeIdx) (ca cb : Word) (act : List NodeIdx) (s : State) : State :=
  let n : NodeIdx := BitVec.ofNat 9 s.nodes.length
  { s with
    nodes := s.nodes ++ [.internal (ca + cb) a b]
    act := act ++ [n]
    phase := if (act ++ [n]).length = 1 then .tree else s.phase
    root := if (act ++ [n]).length = 1 then n else s.root }

/-- R109: `MergeOnce()`. `none` where its precondition fails: fewer than two members, a member that is not allocated, or no
free record in `nodes[0..510]` (R42). -/
def mergeOnce (s : State) : Option State :=
  if Config.maxNode ≤ s.nodes.length then none
  else
    match selectRemove s.nodes s.act with
    | none => none
    | some (a, act1) =>
      match selectRemove s.nodes act1 with
      | none => none
      | some (b, act2) =>
        match nodeAt s.nodes a, nodeAt s.nodes b with
        | some na, some nb => some (joinNodes a b na.count nb.count act2 s)
        | _, _ => none

/-- R112: `while phase = SEEDED: MergeOnce()`, at most `fuel` iterations; `none` if the loop would go on after them. -/
def mergeLoop : Nat → State → Option State
  | 0, s => if s.phase = .seeded then none else some s
  | fuel + 1, s =>
    if s.phase = .seeded then
      match mergeOnce s with
      | none => none
      | some t => mergeLoop fuel t
    else some s

/-- R101: NOP has no effect on state. -/
def execNop (s : State) : Host.Outcome State Fault Refusal := .next s

/-- R102: CLEAR_FREQ zeroes the whole frequency table. -/
def execClearFreq (s : State) : Host.Outcome State Fault Refusal := .next (clearFreqTable s)

/-- R104: SEED. -/
def execSeed (s : State) : Host.Outcome State Fault Refusal := .next (seedBody (encode .seed) s)

/-- R108, R111: MERGE. -/
def execMerge (s : State) : Host.Outcome State Fault Refusal :=
  match s.phase with
  | .none => .next (raiseError .sequence (encode .merge) s)
  | .seeded =>
    match mergeOnce s with
    | some t => .next t
    | none => .fault .mergePrecondition
  | .tree => .next s
  | .empty => .next s

/-- R112: BUILD. After an OVERFLOW the phase is NONE, so the loop does not run. Each merge shortens `act` by one (R110), so
its length is fuel enough and the loop always ends. -/
def execBuild (s : State) : Host.Outcome State Fault Refusal :=
  let t := seedBody (encode .build) s
  match mergeLoop t.act.length t with
  | some u => .next u
  | none => .fault .mergePrecondition

end Sys2Proof.Machine
end

