-- ==== Sys2Proof/Machine/Extractor.lean ====
section
/-! DEFINITION. The code_extractor commands EXT_START and EXT_NEXT (42_code_extractor.md). -/

namespace Sys2Proof.Machine

open Sys2Proof

/-- R142, first branch: latch a triple and advance. -/
def latchTriple (t : Triple) (s : State) : State :=
  { s with
    outSym := t.sym, outLen := BitVec.ofNat 8 t.code.length, outCount := t.count, outCode := codeReg t.code
    extValid := true, extEnd := false, extIdx := s.extIdx + 1 }

/-- R142, second branch: report the end; `ext_idx` is unchanged. -/
def reportEnd (s : State) : State :=
  { s with outSym := 0, outLen := 0, outCount := 0, outCode := 0, extValid := false, extEnd := true }

/-- R141, after the phase check: the extractor stands before the first triple. -/
def extBegin (s : State) : State := { extClear s with extActive := true }

/-- R141: EXT_START. -/
def execExtStart (s : State) : Host.Outcome State Fault Refusal :=
  match s.phase with
  | .none => .next (raiseError .sequence (encode .extStart) s)
  | .seeded => .next (raiseError .sequence (encode .extStart) s)
  | .tree => .next (extBegin s)
  | .empty => .next (extBegin s)

/-- R142: EXT_NEXT. -/
def execExtNext (s : State) : Host.Outcome State Fault Refusal :=
  if s.extActive then
    match s.seq with
    | none => .fault .leafSequenceUndefined
    | some q =>
      match q[s.extIdx.toNat]? with
      | some t => .next (latchTriple t s)
      | none => .next (reportEnd s)
  else .next (raiseError .sequence (encode .extNext) s)

end Sys2Proof.Machine
end

