-- ==== Sys2Proof/Machine/Dispatch.lean ====
section
/-! DEFINITION. `exec`: the command's rule, one arm per command (30_encoding.md rule R85). -/

namespace Sys2Proof.Machine

open Sys2Proof

def exec (i : Instr) (s : State) : Host.Outcome State Fault Refusal :=
  match i with
  | .nop => Sys2Proof.Machine.execNop s
  | .clearFreq => Sys2Proof.Machine.execClearFreq s
  | .seed => Sys2Proof.Machine.execSeed s
  | .merge => Sys2Proof.Machine.execMerge s
  | .build => Sys2Proof.Machine.execBuild s
  | .extStart => Sys2Proof.Machine.execExtStart s
  | .extNext => Sys2Proof.Machine.execExtNext s

end Sys2Proof.Machine
end

