-- ==== Sys2Proof/Machine/Engine.lean ====
section
/-! DEFINITION. The two agents' turns and the reset line (00_scope.md rule R12, 30_encoding.md rules R84 and R85, 70_reset_and_hazards.md rule R191). -/

namespace Sys2Proof.Machine

open Sys2Proof

/-- R85: `Execute(pending)`. An illegal word raises ILLEGAL_CMD and changes nothing else (R82). -/
def execute (s : State) : Host.Outcome State Fault Refusal :=
  match decode s.pending with
  | .ok i => exec i s
  | .error _ => .next (raiseError .illegalCmd s.pending s)

/-- R84: the engine's one step, enabled only while `busy`. -/
def engineComplete (s : State) : Host.Outcome State Fault Refusal :=
  match execute s with
  | .next t => .next (complete t)
  | .fault f => .fault f
  | .refused r => .refused r

/-- The engine's turn: held in reset (R191), the completion while `busy` (R84), nothing while idle (R192). -/
def engineTurn (s : State) : Host.Outcome State Fault Refusal :=
  if s.rst then .next (holdReset s)
  else if s.busy then engineComplete s
  else .next s

/-- The host's turn. A transaction while `rst` is asserted is refused (R191, U14). -/
def hostTurn (op : BusOp) (s : State) : Host.Outcome State Fault Refusal :=
  if s.rst then .refused .busDuringReset else .next (busStep op s)

/-- R191: the reset line's turn. Deasserting it leaves the block idle at the reset values. -/
def rstTurn (asserted : Bool) (s : State) : State :=
  if asserted then holdReset s else { s with rst := false }

/-- One turn of the total order (R70). -/
def takeTurn (i : Input) (s : State) : Host.Outcome State Fault Refusal :=
  match i with
  | .bus op => hostTurn op s
  | .engine => engineTurn s
  | .rst asserted => .next (rstTurn asserted s)

/-- The next turn of the order in `inputs`; when none is listed, the engine's (R84: weak fairness, log 1). -/
def nextTurn (s : State) : Host.Outcome State Fault Refusal :=
  match s.inputs with
  | [] => engineTurn s
  | i :: rest => takeTurn i { s with inputs := rest }

/-- A command word accepted by the block, the engine's turn next (R83). -/
def placeCommand (w : Word) (s : State) : State :=
  { issue w s with rst := false, inputs := .engine :: s.inputs }

end Sys2Proof.Machine
end

