-- ==== Sys2Proof/Machine/Step.lean ====
section
/-! DEFINITION. `step`: one atomic step of one agent in the total order (20_memory.md rule R70), and how a command word is placed for the very next step. -/

namespace Sys2Proof.Machine

open Sys2Proof

/-- R70: one step of the interleaving. -/
def step (s : State) : Host.Outcome State Fault Refusal := nextTurn s

/-- `s` with the command word accepted and pending and the engine's turn next (log 1): the low `nbits` bits of `w`, all higher bits 0. -/
def State.withFetchWord (s : State) (nbits w : Nat) : State := placeCommand (BitVec.ofNat 32 (w % 2 ^ nbits)) s

end Sys2Proof.Machine
end

