-- ==== Sys2Proof/Machine/HostProgram.lean ====
section
/-! DEFINITION. The host-program notation: lines, their encodings, the pseudo-instructions and the encode sequence, as the turns they put in the order, and the host's own decisions in it (30_encoding.md rules R90 to R92, 70_reset_and_hazards.md rule R195). -/

namespace Sys2Proof.Machine

open Sys2Proof

/-- R90: a line of a host program, one bus transaction. -/
inductive HostLine where
  /-- `WR <offset>, <value>`. -/
  | wr (offset : Addr) (value : Word)
  /-- `RD <offset> -> <name>`; the data is the `answer` of the transaction. -/
  | rd (offset : Addr)
  deriving DecidableEq, Repr

/-- R90: the encoding of a line, `(offset, value)` or `(offset, read)`. -/
def HostLine.encoded : HostLine → Addr × Option Word
  | .wr a v => (a, some v)
  | .rd a => (a, none)

/-- R90: the transaction a line is. -/
def HostLine.op : HostLine → BusOp
  | .wr a v => .write a 0xF v
  | .rd a => .read a 0xF

/-- The turn a line takes. -/
def HostLine.turn (l : HostLine) : Input := .bus l.op

/-- R91: the pseudo-instructions. The poll loop of WAIT is the host's own control flow, so WAIT carries how many polls see
BUSY = 1 before the engine's turn (log 1); GETTRIPLE carries whether the host found `len > 32`. -/
inductive Pseudo where
  | line (l : HostLine)
  | cmd (i : Instr)
  | wait (polls : Nat)
  | run (i : Instr) (polls : Nat)
  | setf (sym : Sym) (v : Word)
  | clrdone
  | clrerr
  | gettriple (long : Bool)
  | node (i : Word)
  | actat (p : Word)
  deriving DecidableEq, Repr

/-- R91: `CMD <MNEMONIC>`. -/
def cmdLine (i : Instr) : HostLine := .wr 0x00C (encode i)

/-- R91: one pass of WAIT's loop. -/
def pollLine : HostLine := .rd 0x008

/-- R91: `SETF <s>, <v>`. -/
def setfLine (sym : Sym) (v : Word) : HostLine := .wr (0x400 + 4 * sym.setWidth 12) v

/-- R91: WAIT, with `polls` polls before the engine's turn and one after it. -/
def waitTurns (polls : Nat) : List Input :=
  List.replicate polls pollLine.turn ++ [.engine, pollLine.turn]

/-- R91: the offsets of the code words GETTRIPLE reads, of a code of more than 32 bits or not. -/
def codeOffsets (long : Bool) : List Addr :=
  0x040 :: if long then [0x044, 0x048, 0x04C, 0x050, 0x054, 0x058, 0x05C] else []

/-- R91: GETTRIPLE's lines. -/
def gettripleLines (long : Bool) : List HostLine :=
  [.rd 0x008, .rd 0x030, .rd 0x034, .rd 0x038] ++ (codeOffsets long).map .rd

/-- R91: the expansion of each pseudo-instruction, as turns. -/
def Pseudo.turns : Pseudo → List Input
  | .line l => [l.turn]
  | .cmd i => [(cmdLine i).turn]
  | .wait polls => waitTurns polls
  | .run i polls => (cmdLine i).turn :: waitTurns polls
  | .setf sym v => [(setfLine sym v).turn]
  | .clrdone => [(HostLine.wr 0x008 0x00000002).turn]
  | .clrerr => [(HostLine.wr 0x008 0x00000004).turn]
  | .gettriple long => (gettripleLines long).map HostLine.turn
  | .node i => [HostLine.wr 0x060 i, .rd 0x064, .rd 0x068].map HostLine.turn
  | .actat p => [HostLine.wr 0x06C p, .rd 0x070].map HostLine.turn

/-! ## The encode sequence (R195) -/

/-- R195, step 4: `RUN BUILD`, or `RUN SEED` followed by `RUN MERGE` repeated, each with its number of busy polls. -/
inductive BuildForm where
  | build (polls : Nat)
  | steps (seedPolls : Nat) (mergePolls : List Nat)
  deriving DecidableEq, Repr

def BuildForm.turns : BuildForm → List Input
  | .build polls => (Pseudo.run .build polls).turns
  | .steps seedPolls mergePolls =>
    (Pseudo.run .seed seedPolls).turns ++ mergePolls.flatMap fun polls => (Pseudo.run .merge polls).turns

/-- R195, step 6: one pass of the loop: `RUN EXT_NEXT` and, where EXT_VALID = 1 was read, the triple's GETTRIPLE, long or short. -/
structure Pull where
  polls : Nat
  triple : Option Bool
  deriving DecidableEq, Repr

def Pull.turns (p : Pull) : List Input :=
  (Pseudo.run .extNext p.polls).turns ++
    match p.triple with
    | none => []
    | some long => (Pseudo.gettriple long).turns

/-- R195, step 6: `RUN EXT_START` and the passes of the loop, the one that read EXT_END = 1 last. -/
structure Extraction where
  startPolls : Nat
  pulls : List Pull
  deriving DecidableEq, Repr

def Extraction.turns (e : Extraction) : List Input :=
  (Pseudo.run .extStart e.startPolls).turns ++ e.pulls.flatMap Pull.turns

/-- R195: what a host chooses in one encode. An absent part is a step the host does not take. -/
structure EncodePlan where
  /-- Step 1: the CTRL value, if CTRL is written. -/
  ctrl : Option Word
  /-- Step 2: the busy polls of `RUN CLEAR_FREQ`, if it is run. -/
  clear : Option Nat
  /-- Step 3: the present symbols with their counts. -/
  counts : List (Sym × Word)
  /-- Step 4; absent after an input-stream failure (R161), and then so are steps 5 and 6. -/
  build : Option BuildForm
  /-- Step 6; absent where step 5 read no tree. -/
  extraction : Option Extraction
  deriving DecidableEq, Repr

/-- R195, steps 4 to 6. -/
def EncodePlan.buildTurns (p : EncodePlan) : List Input :=
  match p.build with
  | none => []
  | some b =>
    b.turns ++ [pollLine.turn] ++
      match p.extraction with
      | none => []
      | some e => e.turns

/-- R195: the turns of one encode, in the order of its steps. -/
def encodeTurns (p : EncodePlan) : List Input :=
  (match p.ctrl with
    | none => []
    | some w => [(HostLine.wr 0x004 w).turn]) ++
  (match p.clear with
    | none => []
    | some polls => (Pseudo.run .clearFreq polls).turns) ++
  p.counts.flatMap (fun c => (Pseudo.setf c.1 c.2).turns) ++
  p.buildTurns

/-! ## The host's side of the encode sequence: what it reads and how it acts on it -/

/-- The data and response a host read of an offset returns. -/
def readAnswer (a : Addr) (s : State) : Option Answer := (busRead a s).answer

/-- The data a host read of an offset returns. -/
def readData (a : Addr) (s : State) : Word :=
  readReg s (Config.freeRead s.draws) (regAt a)

/-- R91: `RUN <MNEMONIC>`: the CMD write, then the engine's completion. -/
def runCommand (i : Instr) (s : State) : Host.Outcome State Fault Refusal :=
  engineTurn (busWrite 0x00C 0xF (encode i) s)

/-- R195, step 5: what the STATUS read after step 4 tells the host. -/
inductive Verdict where
  /-- ERR = 1 with ERRCODE = OVERFLOW: the table was too large, no tree exists. -/
  | tooLarge
  /-- PHASE = EMPTY: no tree, which the host reports. -/
  | noTree
  /-- PHASE = TREE: the host goes on to step 6. -/
  | tree
  /-- None of the three: merges remain, or nothing was seeded. -/
  | other
  deriving DecidableEq, Repr

def verdictOf (status : Word) : Verdict :=
  if status.getLsbD 2 = true ∧ status.extractLsb' 12 4 = ErrCode.bits .overflow then .tooLarge
  else if status.extractLsb' 8 2 = Phase.bits .empty then .noTree
  else if status.extractLsb' 8 2 = Phase.bits .tree then .tree
  else .other

/-- R91: what GETTRIPLE's reads return. -/
structure Readout where
  sym : Word
  len : Word
  count : Word
  /-- OUT_CODE0, and OUT_CODE1 to OUT_CODE7 where `len > 32`. -/
  code : List Word
  deriving DecidableEq, Repr

/-- R91: GETTRIPLE. -/
def readTriple (s : State) : Readout where
  sym := readData 0x030 s
  len := readData 0x034 s
  count := readData 0x038 s
  code := (codeOffsets (32 < (readData 0x034 s).toNat)).map fun a => readData a s

/-- R195, step 6: `until STATUS.EXT_END = 1: RUN EXT_NEXT, and if EXT_VALID = 1, read the triple`: the passes the host makes
and the triples it reads, each RUN with `polls` busy polls. The reads between two commands do not reach them (R65). `none`
where the loop does not end within `fuel` passes. -/
def pullLoop (polls : Nat) : Nat → State → Option (List Pull × List Readout)
  | 0, _ => none
  | fuel + 1, s =>
    match runCommand .extNext s with
    | .next t =>
      let pull : Pull :=
        ⟨polls, if (readData 0x008 t).getLsbD 4 then some (decide (32 < (readTriple t).len.toNat)) else none⟩
      let read : List Readout := if (readData 0x008 t).getLsbD 4 then [readTriple t] else []
      if (readData 0x008 t).getLsbD 5 then some ([pull], read)
      else
        match pullLoop polls fuel t with
        | some (pulls, reads) => some (pull :: pulls, read ++ reads)
        | none => none
    | .fault _ => none
    | .refused _ => none

/-- R195, steps 5 and 6, from an idle block after step 4: the extraction a host makes and the triples it reads, none of
either unless the verdict is a tree. A tree has at most 256 triples, so the loop ends within 257 passes. -/
def hostExtraction (polls : Nat) (s : State) : Option (Extraction × List Readout) :=
  match verdictOf (readData 0x008 s) with
  | .tree =>
    match runCommand .extStart s with
    | .next t =>
      match pullLoop polls (Config.maxLeaf + 1) t with
      | some (pulls, reads) => some (⟨polls, pulls⟩, reads)
      | none => none
    | .fault _ => none
    | .refused _ => none
  | .tooLarge => none
  | .noTree => none
  | .other => none

end Sys2Proof.Machine
end

