-- ==== Sys2Proof/Safety.lean ====
section
/-! DEFINITION. The invariants of the block (10_state.md rules R43 and R45, 40_tree_builder.md rules R115 to R119, 41_priority_node_selector.md rule R134, 42_code_extractor.md rule R140) and the words the claims are stated in. -/

namespace Sys2Proof.Machine

open Sys2Proof

/-! ## The FREQ table as numbers -/

/-- R106: the exact sum of the 256 FREQ entries. -/
def freqTotal (freq : Vector Word 256) : Nat := (freq.toList.map BitVec.toNat).sum

/-- R105: the present symbols, in ascending order: the positions of the table's nonzero entries. -/
def presentSyms (s : State) : List Sym :=
  (s.freq.toList.zipIdx.filter fun p => p.1 ≠ 0).map fun p => BitVec.ofNat 8 p.2

/-- R106: the table fits, so SEED and BUILD do not overflow. -/
abbrev fits (s : State) : Prop := freqTotal s.freq ≤ 0xFFFFFFFF

/-! ## Nodes -/

/-- R42: the children of a node, left first. -/
def Node.children : Node → List NodeIdx
  | .leaf _ _ => []
  | .internal _ l r => [l, r]

/-- R42: the symbol of a leaf. -/
def Node.leafSym : Node → Option Sym
  | .leaf sym _ => some sym
  | .internal _ _ _ => none

/-- R42: whether a node is internal. -/
def Node.isInternal : Node → Bool
  | .leaf _ _ => false
  | .internal _ _ _ => true

/-- R143: a leaf's symbol and count. -/
def Node.leafPair : Node → Option (Sym × Word)
  | .leaf sym c => some (sym, c)
  | .internal _ _ _ => none

/-- Every child reference of the arena, as numbers. -/
def childRefs (nodes : List Node) : List Nat := (nodes.flatMap Node.children).map BitVec.toNat

/-- The count at an index as a number (0 where nothing is allocated). -/
def countNat (nodes : List Node) (i : NodeIdx) : Nat :=
  match nodeAt nodes i with
  | some n => n.count.toNat
  | none => 0

/-- The sum of the counts of the Active Set. -/
def activeTotal (s : State) : Nat := (s.act.map (countNat s.nodes)).sum

/-- R105, R109, R116: what the record at index `i` must look like, of a tree with `nleaf` leaves. -/
def nodeOk (nodes : List Node) (nleaf i : Nat) : Node → Prop
  | .leaf _ c => i < nleaf ∧ c ≠ 0
  | .internal c l r =>
    nleaf ≤ i ∧ l.toNat < i ∧ r.toNat < i ∧ c.toNat = countNat nodes l + countNat nodes r

/-- R45: what each phase says of the builder's state. -/
def phaseOk (s : State) : Prop :=
  match s.phase with
  | .none => s.act = [] ∧ s.nodes = [] ∧ s.nleaf = 0 ∧ s.root = 0 ∧ s.total = 0
  | .seeded => 2 ≤ s.act.length ∧ s.root = 0
  | .tree => s.act = [s.root] ∧ s.root.toNat + 1 = s.nodes.length
  | .empty => s.act = [] ∧ s.nodes = [] ∧ s.nleaf = 0 ∧ s.root = 0 ∧ s.total = 0

/-! ## The invariant -/

/-- The builder's invariant. -/
structure BuilderInv (s : State) : Prop where
  /-- R45. -/
  phase : phaseOk s
  /-- R118: with `m` merges done, `nnode = L + m` and `len(act) = L - m`. -/
  size : s.nodes.length + s.act.length = 2 * s.nleaf.toNat
  /-- R26: at most one leaf per symbol. -/
  leaves : s.nleaf.toNat ≤ Config.maxLeaf
  /-- R105, R109, R116: leaves first, then internal nodes over earlier ones, each count the sum of its children's. -/
  shape : ∀ i (h : i < s.nodes.length), nodeOk s.nodes s.nleaf.toNat i s.nodes[i]
  /-- R105: leaves in ascending symbol order. -/
  symbols : ((s.nodes.filterMap Node.leafSym).map BitVec.toNat).Pairwise (· < ·)
  /-- R43, R117: each node is either in the Active Set or the child of exactly one node, and only once. -/
  forest : (childRefs s.nodes ++ s.act.map BitVec.toNat).Perm (List.range s.nodes.length)
  /-- R134. -/
  order : (s.act.map BitVec.toNat).Pairwise (· < ·)
  /-- R115, R119: the Active Set's counts sum to `total`. -/
  sum : activeTotal s = s.total.toNat

/-- R142: the output registers hold this triple. -/
def latched (t : Triple) (s : State) : Prop :=
  s.outSym = t.sym ∧ s.outLen = BitVec.ofNat 8 t.code.length ∧ s.outCount = t.count ∧ s.outCode = codeReg t.code

/-- R100, R142: the output registers are all 0. -/
def outZero (s : State) : Prop := s.outSym = 0 ∧ s.outLen = 0 ∧ s.outCount = 0 ∧ s.outCode = 0

/-- R140, R142: the extractor is inactive and clear, or stands at a position of the leaf sequence of the present tree. -/
def extractorInv (s : State) : Prop :=
  if s.extActive then
    (s.phase = .tree ∨ s.phase = .empty) ∧
    ∃ q, s.seq = some q ∧
      ((s.extValid = false ∧ s.extEnd = false ∧ s.extIdx = 0 ∧ outZero s) ∨
       (s.extValid = true ∧ s.extEnd = false ∧
          ∃ k t, s.extIdx.toNat = k + 1 ∧ q[k]? = some t ∧ latched t s) ∨
       (s.extValid = false ∧ s.extEnd = true ∧ s.extIdx.toNat = q.length ∧ outZero s))
  else s.extValid = false ∧ s.extEnd = false ∧ s.extIdx = 0 ∧ outZero s

/-- R23, R160, R165: ERRCODE is 0 exactly when ERR is 0, and ERRINFO is then 0. -/
def errorInv (s : State) : Prop :=
  (s.errcode = .none ↔ s.err = false) ∧ (s.err = false → s.errinfo = 0)

/-- R191: while `rst` is asserted every piece of the block's state is at its reset value. -/
def resetInv (s : State) : Prop := s.rst = true → s = holdReset s

/-- The invariant of the machine. It does not mention `busy`: the engine's step is atomic (R84), so it holds at all times. -/
structure Inv (s : State) : Prop where
  builder : BuilderInv s
  extractor : extractorInv s
  error : errorInv s
  reset : resetInv s

/-! ## Words the claims use -/

/-- The block's state that commands read or write: the FREQ table, the builder, the extractor. -/
structure Results where
  freq : Vector Word 256
  nodes : List Node
  act : List NodeIdx
  nleaf : BitVec 9
  root : NodeIdx
  total : Word
  phase : Phase
  extActive : Bool
  extValid : Bool
  extEnd : Bool
  extIdx : BitVec 9
  outSym : Sym
  outLen : BitVec 8
  outCount : Word
  outCode : CodeReg
  deriving DecidableEq, Repr

/-- The results part of a state. -/
def State.results (s : State) : Results where
  freq := s.freq
  nodes := s.nodes
  act := s.act
  nleaf := s.nleaf
  root := s.root
  total := s.total
  phase := s.phase
  extActive := s.extActive
  extValid := s.extValid
  extEnd := s.extEnd
  extIdx := s.extIdx
  outSym := s.outSym
  outLen := s.outLen
  outCount := s.outCount
  outCode := s.outCode

/-- The tree and the Active Set: what SEED, MERGE and BUILD write besides the extractor. -/
abbrev sameTree (s t : State) : Prop :=
  t.nodes = s.nodes ∧ t.act = s.act ∧ t.nleaf = s.nleaf ∧ t.root = s.root ∧ t.total = s.total ∧ t.phase = s.phase

/-- The extractor and its output latches. -/
abbrev sameExtractor (s t : State) : Prop :=
  t.extActive = s.extActive ∧ t.extValid = s.extValid ∧ t.extEnd = s.extEnd ∧ t.extIdx = s.extIdx ∧
  t.outSym = s.outSym ∧ t.outLen = s.outLen ∧ t.outCount = s.outCount ∧ t.outCode = s.outCode

/-- The extractor is clear (R100). -/
abbrev extractorClear (s : State) : Prop :=
  s.extActive = false ∧ s.extValid = false ∧ s.extEnd = false ∧ s.extIdx = 0 ∧ outZero s

/-- The error record. -/
abbrev sameError (s t : State) : Prop := t.err = s.err ∧ t.errcode = s.errcode ∧ t.errinfo = s.errinfo

/-- What no command's rule writes: engine, DONE, CTRL, the selections, the reset line, the host's side and the draw counter. -/
abbrev sameControl (s t : State) : Prop :=
  t.busy = s.busy ∧ t.pending = s.pending ∧ t.done = s.done ∧ t.ieDone = s.ieDone ∧ t.ieErr = s.ieErr ∧
  t.nodeSel = s.nodeSel ∧ t.actSel = s.actSel ∧ t.rst = s.rst ∧ t.inputs = s.inputs ∧ t.answer = s.answer ∧
  t.draws = s.draws

/-- R165: what recording `Error(code, info)` leaves of the error record. -/
abbrev errorRecorded (code : ErrCode) (info : Word) (s t : State) : Prop :=
  (s.err = false → t.err = true ∧ t.errcode = code ∧ t.errinfo = info) ∧ (s.err = true → sameError s t)

/-- Commands run one after another by their rules, without the completions between them (R113). -/
def execAll : List Instr → State → Host.Outcome State Fault Refusal
  | [], s => .next s
  | i :: is, s =>
    match exec i s with
    | .next t => execAll is t
    | .fault f => .fault f
    | .refused r => .refused r

/-- R91: RUN commands one after another. -/
def runAll : List Instr → State → Host.Outcome State Fault Refusal
  | [], s => .next s
  | i :: is, s =>
    match runCommand i s with
    | .next t => runAll is t
    | .fault f => .fault f
    | .refused r => .refused r

/-- Host transactions one after another (R61). -/
def busSteps (ops : List BusOp) (s : State) : State := ops.foldl (fun t op => busStep op t) s

/-- R91, R143: what GETTRIPLE reads of a triple the outputs hold. -/
def readoutOf (tr : Triple) : Readout where
  sym := tr.sym.setWidth 32
  len := BitVec.ofNat 32 tr.code.length
  count := tr.count
  code := (List.range (if 32 < tr.code.length then 8 else 1)).map fun k => (codeReg tr.code).extractLsb' (32 * k) 32

/-- No turn of the order asserts reset. -/
def noReset (inputs : List Input) : Bool := inputs.all fun i => i ≠ .rst true

end Sys2Proof.Machine
end

