-- ==== Sys2Proof/Certificates/Slice0/Obligations.lean ====
section
/-! DEFINITION. The statements for the provers, each from a rule of the spec. -/

open Sys2Proof Sys2Proof.Machine

/-! ## Encoding -/

/-- R81, a few words of the table, and two illegal ones (95_test_vectors.md E2, E3). -/
def Obligations.FewCommandWordsDecode : Prop :=
  decode 0x00000000 = .ok .nop ∧ decode 0x00000002 = .ok .seed ∧ decode 0x00000004 = .ok .build ∧
  decode 0x00000006 = .ok .extNext ∧
  decode 0x00000007 = .error .reservedOp ∧ decode 0x00000010 = .error .zeroFieldSet

/-- R81: the opcode map, exactly: each command has one word, each legal word one command, 0x7 to 0xF none. -/
def Obligations.OpcodeMapIsExact : Prop :=
  (∀ i, decode (encode i) = .ok i) ∧
  (∀ w i, decode w = .ok i → w = encode i) ∧
  encode .nop = 0x00000000 ∧ encode .clearFreq = 0x00000001 ∧ encode .seed = 0x00000002 ∧
  encode .merge = 0x00000003 ∧ encode .build = 0x00000004 ∧ encode .extStart = 0x00000005 ∧
  encode .extNext = 0x00000006 ∧
  ∀ w : Word, 7 ≤ w.toNat → w.toNat ≤ 15 → decode w = .error .reservedOp

/-- R82: an illegal word is refused by the decoder, accepted by an idle block like any other word, and its completion records
ILLEGAL_CMD with the word and changes nothing else. -/
def Obligations.IllegalWordsOnlyRecordAnError : Prop :=
  ∀ (w : Word) (s : State), (zeroField w ≠ 0 ∨ 7 ≤ (opField w).toNat) → s.rst = false →
    (∃ r, decode w = .error r) ∧
    (s.busy = false →
      hostTurn (.write 0x00C 0xF w) s =
        .next { s with busy := true, pending := w, answer := some (.write .ok) }) ∧
    (s.busy = true → s.pending = w →
      ∃ t, engineTurn s = .next t ∧ t.busy = false ∧ t.done = true ∧
        errorRecorded .illegalCmd w s t ∧ t.results = s.results ∧ t.pending = s.pending ∧
        t.ieDone = s.ieDone ∧ t.ieErr = s.ieErr ∧ t.nodeSel = s.nodeSel ∧ t.actSel = s.actSel)

/-! ## Steps -/

/-- R84, R85: the engine's turn of a busy block whose word decodes to `i` is `exec i`, then `busy <- 0` and `done <- 1`. -/
def Obligations.StepRunsThePendingCommand : Prop :=
  ∀ (s : State) (i : Instr) (rest : List Input),
    s.rst = false → s.busy = true → decode s.pending = .ok i →
    (s.inputs = .engine :: rest ∨ (s.inputs = [] ∧ rest = [])) →
    step s =
      match exec i { s with inputs := rest } with
      | .next t => .next { t with busy := false, done := true }
      | .fault f => .fault f
      | .refused r => .refused r

/-- R70, R61, R191, R192: each other turn is the host's transaction, the reset line, or nothing. A transaction while `rst` is
asserted is refused (U14). -/
def Obligations.StepTakesTheNextTurn : Prop :=
  ∀ (s : State) (rest : List Input),
    (∀ op, s.inputs = .bus op :: rest → s.rst = false →
      step s = .next (busStep op { s with inputs := rest })) ∧
    (∀ op, s.inputs = .bus op :: rest → s.rst = true → step s = .refused .busDuringReset) ∧
    (∀ a, s.inputs = .rst a :: rest → step s = .next (rstTurn a { s with inputs := rest })) ∧
    (s.inputs = .engine :: rest → s.rst = false → s.busy = false → step s = .next { s with inputs := rest }) ∧
    (s.inputs = [] → s.rst = false → s.busy = false → step s = .next s)

/-- R84, R193: under the invariant the engine's turn of a busy block always completes, whatever the word: BUSY is cleared and
DONE is set, even after an error; CTRL, the selections, `pending`, the turns to come and the host's side are untouched. -/
def Obligations.EveryPendingWordCompletes : Prop :=
  ∀ s : State, Inv s → s.rst = false → s.busy = true →
    ∃ t, engineTurn s = .next t ∧ t.busy = false ∧ t.done = true ∧ t.pending = s.pending ∧
      t.ieDone = s.ieDone ∧ t.ieErr = s.ieErr ∧ t.nodeSel = s.nodeSel ∧ t.actSel = s.actSel ∧
      t.rst = false ∧ t.inputs = s.inputs ∧ t.answer = s.answer ∧ t.draws = s.draws

/-- R84: from every state of the invariant with a pending command, if reset is not asserted among the listed turns, at most one
step more than there are listed turns brings the completion. (That the engine moves once no turn is listed is log 1.) -/
def Obligations.PendingCommandEventuallyCompletes : Prop :=
  ∀ s : State, Inv s → s.rst = false → s.busy = true → noReset s.inputs = true →
    ∃ k t, k ≤ s.inputs.length + 1 ∧ Host.Core.run Sys2Proof.core k s = .next t ∧
      t.busy = false ∧ t.done = true

/-! ## The invariant -/

/-- R45, R190: the reset state meets the invariant. -/
def Obligations.ResetMeetsTheInvariant : Prop := Inv State.reset

/-- R43, R45, R105, R115 to R119, R134, R140, R165, R191: every step keeps the invariant. -/
def Obligations.StepKeepsTheInvariant : Prop :=
  ∀ s t : State, Inv s → step s = .next t → Inv t

/-- R109, R131, R143: under the invariant no step faults, and the only refusal is a host transaction during reset. -/
def Obligations.StepNeverFaults : Prop :=
  ∀ s : State, Inv s →
    (∀ f, step s ≠ .fault f) ∧
    (∀ r, step s = .refused r →
      r = .busDuringReset ∧ s.rst = true ∧ ∃ op rest, s.inputs = .bus op :: rest)

/-- R118: node counts. `L` is the number of leaves and `m` of internal nodes, the merges done. -/
def Obligations.NodeCounts : Prop :=
  ∀ s : State, Inv s →
    s.nodes.length ≤ Config.maxNode ∧
    ∀ L m, L = (s.nodes.filter fun n => !n.isInternal).length → m = (s.nodes.filter Node.isInternal).length →
      s.nleaf.toNat = L ∧
      (s.phase = .tree → s.nodes.length = 2 * L - 1) ∧
      (s.phase = .seeded → s.nodes.length = L + m ∧ s.act.length = L - m)

/-- R116: after every step, an internal node's count is exactly the sum of its children's, leaf counts are at least 1 and
internal counts at least 2. -/
def Obligations.InternalCountsAreSums : Prop :=
  ∀ s t : State, Inv s → step s = .next t →
    (∀ i sym c, nodeAt t.nodes i = some (.leaf sym c) → 1 ≤ c.toNat) ∧
    (∀ i c l r, nodeAt t.nodes i = some (.internal c l r) →
      ∃ nl nr, nodeAt t.nodes l = some nl ∧ nodeAt t.nodes r = some nr ∧
        c.toNat = nl.count.toNat + nr.count.toNat ∧ 2 ≤ c.toNat)

/-- R117: two distinct children each, one parent each but for the root, and no symbol repeated. -/
def Obligations.EveryNodeHasOneParent : Prop :=
  ∀ s : State, Inv s →
    (∀ i c l r, nodeAt s.nodes i = some (.internal c l r) → l ≠ r) ∧
    (s.phase = .tree → ∀ i, i < s.nodes.length →
      (childRefs s.nodes).count i = if i = s.root.toNat then 0 else 1) ∧
    (∀ i j sym c d, nodeAt s.nodes i = some (.leaf sym c) → nodeAt s.nodes j = some (.leaf sym d) → i = j)

/-- R119: the root's count is the total, and the leaves' counts sum to it; the total is the sum of the table SEED or BUILD read. -/
def Obligations.RootCountIsTheTotal : Prop :=
  (∀ s : State, Inv s → s.phase = .tree →
    (∃ n, nodeAt s.nodes s.root = some n ∧ n.count = s.total) ∧
    ((s.nodes.filterMap Node.leafPair).map fun p => p.2.toNat).sum = s.total.toNat) ∧
  (∀ (s : State) (i : Instr), (i = .seed ∨ i = .build) → fits s →
    ∃ t, exec i s = .next t ∧ t.total.toNat = freqTotal s.freq)

/-- R134: the Active Set is strictly increasing and never longer than `nleaf`, so leaves stand before internal nodes. -/
def Obligations.ActiveSetIsIncreasing : Prop :=
  ∀ s : State, Inv s → (s.phase = .seeded ∨ s.phase = .tree) →
    s.act.Pairwise (fun x y => x.toNat < y.toNat) ∧ s.act.length ≤ s.nleaf.toNat ∧ s.nleaf.toNat ≤ 256 ∧
    (∀ (i j : Nat) (x y : NodeIdx) (n m : Node), s.act[i]? = some x → s.act[j]? = some y →
      nodeAt s.nodes x = some n → nodeAt s.nodes y = some m → n.isInternal = false → m.isInternal = true → i < j)

/-! ## The selector -/

/-- R131: SelectRemove returns the member at the earliest position of the least count and removes that position; it does so for
every nonempty Active Set of allocated nodes. -/
def Obligations.SelectionIsEarliestMinimum : Prop :=
  ∀ (nodes : List Node) (act : List NodeIdx),
    (∀ x rest, selectRemove nodes act = some (x, rest) →
      ∃ p n, act[p]? = some x ∧ rest = act.eraseIdx p ∧ nodeAt nodes x = some n ∧
        (∀ y ∈ act, ∃ k, nodeAt nodes y = some k ∧ n.count.toNat ≤ k.count.toNat) ∧
        (∀ i y k, i < p → act[i]? = some y → nodeAt nodes y = some k → n.count.toNat < k.count.toNat)) ∧
    (act ≠ [] → (∀ y ∈ act, (nodeAt nodes y).isSome) → (selectRemove nodes act).isSome)

/-- R132: the left-to-right scan that never updates on a tie selects the same position as the selection rule. -/
def Obligations.ReferenceScanAgrees : Prop :=
  ∀ counts : List Word, scanPos counts = selectPos counts

/-- R133: the two selections of a merge, the second on the Active Set the first left. The first is the left child, the second the
right; they differ, and the first has the smaller count or stood first. -/
def Obligations.SecondSelectionFollowsFirst : Prop :=
  ∀ s t : State, Inv s → s.phase = .seeded → exec .merge s = .next t →
    ∃ (a b : NodeIdx) (act1 act2 : List NodeIdx) (na nb : Node) (c : Word) (i j : Nat),
      selectRemove s.nodes s.act = some (a, act1) ∧ selectRemove s.nodes act1 = some (b, act2) ∧
      t.nodes = s.nodes ++ [.internal c a b] ∧ a ≠ b ∧
      nodeAt s.nodes a = some na ∧ nodeAt s.nodes b = some nb ∧
      s.act[i]? = some a ∧ s.act[j]? = some b ∧
      na.count.toNat ≤ nb.count.toNat ∧ (na.count = nb.count → i < j)

/-- R135: in an increasing Active Set the selected member has the strictly least 41-bit key (count, index), and keys are
distinct. -/
def Obligations.SelectionIsLeastKey : Prop :=
  ∀ (nodes : List Node) (act : List NodeIdx) (x : NodeIdx) (rest : List NodeIdx),
    act.Pairwise (fun a b => a.toNat < b.toNat) → selectRemove nodes act = some (x, rest) →
    ∃ n, nodeAt nodes x = some n ∧
      (∀ y k, y ∈ act → y ≠ x → nodeAt nodes y = some k →
        (selKey n.count x).toNat < (selKey k.count y).toNat) ∧
      (∀ y z k l, y ∈ act → z ∈ act → y ≠ z → nodeAt nodes y = some k → nodeAt nodes z = some l →
        selKey k.count y ≠ selKey l.count z)

/-! ## The builder commands -/

/-- R101: NOP has no effect, and its completion sets DONE. -/
def Obligations.NopOnlyCompletes : Prop :=
  decode 0x00000000 = .ok .nop ∧
  (∀ s : State, exec .nop s = .next s) ∧
  (∀ s : State, s.rst = false → s.busy = true → s.pending = 0x00000000 →
    engineTurn s = .next { s with busy := false, done := true }) ∧
  (∀ w : Word, zeroField w ≠ 0 → decode w ≠ .ok .nop)

/-- R102: CLEAR_FREQ zeroes every entry and touches nothing else; on a zero table it changes nothing; a SEED next gives EMPTY. -/
def Obligations.ClearFreqZeroesTheTable : Prop :=
  decode 0x00000001 = .ok .clearFreq ∧
  ∀ s : State, ∃ t, exec .clearFreq s = .next t ∧
    (∀ sym, readFreq t sym = 0) ∧ sameTree s t ∧ sameExtractor s t ∧ sameError s t ∧ sameControl s t ∧
    t.seq = s.seq ∧
    ((∀ sym, readFreq s sym = 0) → t = s) ∧
    ∃ u, exec .seed t = .next u ∧ u.phase = .empty

/-- R105, R107: what SEED leaves when the table fits: node k is the leaf of the k-th smallest present symbol, at position k of
`act`; the phase is by the number of leaves; the total is exact, the extractor clear, and there is no error. FREQ and
everything else is unchanged. -/
def Obligations.SeedWithoutOverflow : Prop :=
  ∀ s : State, fits s → ∃ t, exec .seed s = .next t ∧
    t.nodes = (presentSyms s).map (fun sym => .leaf sym (readFreq s sym)) ∧
    t.act.map BitVec.toNat = List.range (presentSyms s).length ∧
    t.nleaf.toNat = (presentSyms s).length ∧ t.root = 0 ∧ t.total.toNat = freqTotal s.freq ∧
    ((presentSyms s).length = 0 → t.phase = .empty) ∧
    ((presentSyms s).length = 1 → t.phase = .tree) ∧
    (2 ≤ (presentSyms s).length → t.phase = .seeded) ∧
    extractorClear t ∧ t.freq = s.freq ∧ sameError s t ∧ sameControl s t

/-- R106: the sum is exact, and a table that does not fit leaves no tree, a clear extractor, FREQ unchanged and OVERFLOW with
the command word. -/
def Obligations.OverflowLeavesNoTree : Prop :=
  ∀ s : State, (freqSum s.freq).toNat = freqTotal s.freq ∧
    (¬ fits s → ∀ i, (i = .seed ∨ i = .build) → ∃ t, exec i s = .next t ∧
      t.phase = .none ∧ t.nodes = [] ∧ t.act = [] ∧ t.nleaf = 0 ∧ t.root = 0 ∧ t.total = 0 ∧
      extractorClear t ∧ t.freq = s.freq ∧ errorRecorded .overflow (encode i) s t ∧ sameControl s t)

/-- R111: MERGE outside the loop: nothing in TREE and EMPTY, SEQUENCE in NONE with all else unchanged. -/
def Obligations.MergeOutsideTheLoop : Prop :=
  ∀ s : State,
    ((s.phase = .tree ∨ s.phase = .empty) → exec .merge s = .next s) ∧
    (s.phase = .none → ∃ t, exec .merge s = .next t ∧ errorRecorded .sequence 0x00000003 s t ∧
      t.results = s.results ∧ sameControl s t)

/-- R109: one merge: two selections, a new internal node at index `nnode` over them, first popped left, exact count, appended
at the end; TREE and `root` when one member is left; nothing else. -/
def Obligations.MergeJoinsTheTwoLeast : Prop :=
  ∀ s : State, Inv s → s.phase = .seeded →
    ∃ t a b act1 act2 na nb, exec .merge s = .next t ∧
      selectRemove s.nodes s.act = some (a, act1) ∧ selectRemove s.nodes act1 = some (b, act2) ∧
      nodeAt s.nodes a = some na ∧ nodeAt s.nodes b = some nb ∧
      t.nodes = s.nodes ++ [.internal (na.count + nb.count) a b] ∧
      (na.count + nb.count).toNat = na.count.toNat + nb.count.toNat ∧
      (∃ n : NodeIdx, n.toNat = s.nodes.length ∧ t.act = act2 ++ [n] ∧
        (t.act.length = 1 → t.phase = .tree ∧ t.root = n) ∧
        (t.act.length ≠ 1 → t.phase = .seeded ∧ t.root = s.root)) ∧
      t.freq = s.freq ∧ t.nleaf = s.nleaf ∧ t.total = s.total ∧
      sameExtractor s t ∧ sameError s t ∧ sameControl s t

/-- R110: each merge shortens the Active Set by one, and the loop ends after exactly L - 1 of them with one member, the root. -/
def Obligations.MergesTerminate : Prop :=
  ∀ s : State, fits s → 2 ≤ (presentSyms s).length →
    ∀ m, m ≤ (presentSyms s).length - 1 →
      ∃ t, execAll (.seed :: List.replicate m .merge) s = .next t ∧
        t.act.length = (presentSyms s).length - m ∧
        (m < (presentSyms s).length - 1 → t.phase = .seeded) ∧
        (m = (presentSyms s).length - 1 → t.phase = .tree ∧ t.act = [t.root] ∧ t.root.toNat + 1 = t.nodes.length)

/-- R112: BUILD completes from every state whose table fits, with EMPTY or the whole tree of 2L - 1 nodes; FREQ and everything
outside the builder and the extractor is unchanged. -/
def Obligations.BuildMakesTheWholeTree : Prop :=
  ∀ s : State, fits s → ∃ t, exec .build s = .next t ∧
    t.nleaf.toNat = (presentSyms s).length ∧ t.total.toNat = freqTotal s.freq ∧
    ((presentSyms s).length = 0 → t.phase = .empty ∧ t.nodes = [] ∧ t.act = [] ∧ t.root = 0) ∧
    (1 ≤ (presentSyms s).length →
      t.phase = .tree ∧ t.nodes.length = 2 * (presentSyms s).length - 1 ∧ t.act = [t.root] ∧
      t.root.toNat + 1 = t.nodes.length) ∧
    extractorClear t ∧ t.freq = s.freq ∧ sameError s t ∧ sameControl s t

/-- R113: BUILD leaves the same state as SEED followed by L - 1 MERGE commands: by the commands' rules the very same state, and
with each command written to CMD and completed the same state but for `pending`, which is meaningless while idle (R29). -/
def Obligations.BuildEqualsSeedThenMerges : Prop :=
  ∀ s : State, fits s →
    (∃ t, exec .build s = .next t ∧
      execAll (.seed :: List.replicate ((presentSyms s).length - 1) .merge) s = .next t) ∧
    (s.rst = false → s.busy = false →
      ∃ t u, runAll [.build] s = .next t ∧
        runAll (.seed :: List.replicate ((presentSyms s).length - 1) .merge) s = .next u ∧
        u = { t with pending := u.pending } ∧ t.busy = false ∧ t.done = true)

/-- R114: SEED and BUILD leave builder and extractor as a function of FREQ alone, whatever the state before. -/
def Obligations.SameTableSameTree : Prop :=
  ∀ (s u : State) (i : Instr), (i = .seed ∨ i = .build) → s.freq = u.freq →
    ∃ t v, exec i s = .next t ∧ exec i u = .next v ∧ t.results = v.results

/-- R114, R71: host traffic while a command is pending never reaches the command's result. -/
def Obligations.BusyTrafficNeverReachesTheResult : Prop :=
  ∀ (s : State) (ops : List BusOp), s.rst = false → s.busy = true →
    (busSteps ops s).busy = true ∧ (busSteps ops s).pending = s.pending ∧
    (∀ t, engineTurn s = .next t →
      ∃ u, engineTurn (busSteps ops s) = .next u ∧ u.results = t.results ∧ u.busy = t.busy ∧ u.done = t.done)

/-! ## The extractor commands -/

/-- R141: EXT_START by phase; in EMPTY the next EXT_NEXT reports the end. -/
def Obligations.ExtStartByPhase : Prop :=
  decode 0x00000005 = .ok .extStart ∧
  ∀ s : State,
    ((s.phase = .tree ∨ s.phase = .empty) → ∃ t, exec .extStart s = .next t ∧
      t.extActive = true ∧ t.extValid = false ∧ t.extEnd = false ∧ t.extIdx = 0 ∧ outZero t ∧
      sameTree s t ∧ t.freq = s.freq ∧ sameError s t ∧ sameControl s t) ∧
    ((s.phase = .none ∨ s.phase = .seeded) → ∃ t, exec .extStart s = .next t ∧
      errorRecorded .sequence 0x00000005 s t ∧ t.results = s.results ∧ sameControl s t) ∧
    (s.phase = .empty → ∃ t u, exec .extStart s = .next t ∧ exec .extNext t = .next u ∧
      u.extEnd = true ∧ u.extValid = false)

/-- R142: EXT_NEXT latches the triple at `ext_idx`, path bit j at bit j, or reports the end; SEQUENCE where the extractor is not
active. -/
def Obligations.ExtNextPullsTheNextTriple : Prop :=
  decode 0x00000006 = .ok .extNext ∧
  ∀ s : State,
    (s.extActive = false → ∃ t, exec .extNext s = .next t ∧
      errorRecorded .sequence 0x00000006 s t ∧ t.results = s.results ∧ sameControl s t) ∧
    (Inv s → s.extActive = true → ∃ q, s.seq = some q ∧
      (∀ tr, q[s.extIdx.toNat]? = some tr → ∃ t, exec .extNext s = .next t ∧
        t.outSym = tr.sym ∧ t.outLen.toNat = tr.code.length ∧ t.outCount = tr.count ∧
        (∀ j, t.outCode.getLsbD j = tr.code.getD j false) ∧
        t.extValid = true ∧ t.extEnd = false ∧ t.extIdx.toNat = s.extIdx.toNat + 1 ∧
        t.extActive = true ∧ sameTree s t ∧ t.freq = s.freq ∧ sameError s t ∧ sameControl s t) ∧
      (q.length ≤ s.extIdx.toNat → ∃ t, exec .extNext s = .next t ∧
        outZero t ∧ t.extValid = false ∧ t.extEnd = true ∧ t.extIdx = s.extIdx ∧
        t.extActive = true ∧ sameTree s t ∧ t.freq = s.freq ∧ sameError s t ∧ sameControl s t))

/-- R143: the leaf sequence is the depth-first, left-before-right recursion, 0 to the left and 1 to the right; it ends because
children have smaller indices. -/
def Obligations.LeafSequenceIsDepthFirst : Prop :=
  ∀ s : State, Inv s →
    (s.phase ≠ .tree → s.seq = some []) ∧
    (∀ n c l r, nodeAt s.nodes n = some (.internal c l r) → l.toNat < n.toNat ∧ r.toNat < n.toNat) ∧
    (s.phase = .tree → ∃ leaves : NodeIdx → List Bool → List Triple,
      (∀ n path sym c, nodeAt s.nodes n = some (.leaf sym c) → leaves n path = [⟨sym, path, c⟩]) ∧
      (∀ n path c l r, nodeAt s.nodes n = some (.internal c l r) →
        leaves n path = leaves l (path ++ [false]) ++ leaves r (path ++ [true])) ∧
      s.seq = some (leaves s.root []))

/-- R144: in EMPTY the sequence is empty, EXT_START is permitted, and the next EXT_NEXT reports the end. -/
def Obligations.EmptyTreeExtractsNothing : Prop :=
  ∀ s : State, s.phase = .empty → s.seq = some [] ∧
    ∃ t u, exec .extStart s = .next t ∧ sameError s t ∧ exec .extNext t = .next u ∧ sameError s u ∧
      u.extEnd = true ∧ u.extValid = false ∧ u.extIdx = 0

/-- R145: the sequence has one triple for every leaf, with distinct symbols, counts summing to `total`; EXT_NEXT gives the one at
`ext_idx`. -/
def Obligations.EveryLeafExactlyOnce : Prop :=
  ∀ s : State, Inv s → s.phase = .tree → ∃ q, s.seq = some q ∧
    q.length = s.nleaf.toNat ∧
    (q.map fun t => (t.sym, t.count)).Perm (s.nodes.filterMap Node.leafPair) ∧
    (q.map Triple.sym).Nodup ∧
    (q.map fun t => t.count.toNat).sum = s.total.toNat ∧
    (s.extActive = true → ∀ tr, q[s.extIdx.toNat]? = some tr →
      ∃ t, exec .extNext s = .next t ∧ latched tr t)

/-- R146: no code is longer than `nleaf - 1`, at most 255, so OUT_LEN and OUT_CODE hold it whole. -/
def Obligations.CodesFitTheOutputRegisters : Prop :=
  ∀ (s : State) (q : List Triple), Inv s → s.seq = some q → ∀ tr ∈ q,
    tr.code.length ≤ s.nleaf.toNat - 1 ∧ tr.code.length ≤ Config.maxCode ∧
    (BitVec.ofNat 8 tr.code.length).toNat = tr.code.length ∧
    (∀ j, (h : j < tr.code.length) → (codeReg tr.code).getLsbD j = tr.code[j]) ∧
    (∀ j, tr.code.length ≤ j → (codeReg tr.code).getLsbD j = false)

/-- R147: a single-leaf tree has one empty code; any other tree has no empty code. -/
def Obligations.SingleLeafHasTheEmptyCode : Prop :=
  ∀ s : State, Inv s → s.phase = .tree → ∃ q, s.seq = some q ∧
    (s.nleaf.toNat = 1 → ∃ sym c, q = [⟨sym, [], c⟩] ∧ codeReg [] = 0) ∧
    (2 ≤ s.nleaf.toNat → ∀ tr ∈ q, 1 ≤ tr.code.length)

/-- R148: with two or more leaves no code of the sequence is a prefix of another, and all are distinct. -/
def Obligations.CodesArePrefixFree : Prop :=
  ∀ (s : State) (q : List Triple), Inv s → s.phase = .tree → s.seq = some q → 2 ≤ s.nleaf.toNat →
    (∀ (i j : Nat) (t u : Triple), i ≠ j → q[i]? = some t → q[j]? = some u → ¬ t.code <+: u.code) ∧
    (q.map Triple.code).Nodup

/-- R149: the extractor commands leave tree, Active Set and FREQ, and so the sequence, unchanged. -/
def Obligations.ExtractionIsReadOnly : Prop :=
  ∀ (s t : State) (i : Instr), (i = .extStart ∨ i = .extNext) → exec i s = .next t →
    sameTree s t ∧ t.freq = s.freq ∧ t.seq = s.seq

/-- R140: while the extractor stays active the tree does not change, the phase is TREE or EMPTY, `ext_idx` is within the sequence,
and VALID and END never hold together. -/
def Obligations.ActiveExtractorKeepsItsTree : Prop :=
  ∀ s t : State, Inv s → step s = .next t → t.extActive = true →
    (t.phase = .tree ∨ t.phase = .empty) ∧
    (s.extActive = true → sameTree s t ∧ t.seq = s.seq) ∧
    (∃ q, t.seq = some q ∧ t.extIdx.toNat ≤ q.length) ∧
    ¬ (t.extValid = true ∧ t.extEnd = true)

/-- R208: SEED and BUILD clear the extractor, and an EXT_NEXT right after raises SEQUENCE. -/
def Obligations.RebuildDisarmsTheExtractor : Prop :=
  ∀ (s : State) (i : Instr), (i = .seed ∨ i = .build) → ∃ t u,
    exec i s = .next t ∧ extractorClear t ∧ exec .extNext t = .next u ∧
    errorRecorded .sequence 0x00000006 t u ∧ u.results = t.results

/-! ## Errors and the interrupt -/

/-- R165: the first error wins; recording one writes nothing else. -/
def Obligations.FirstErrorWins : Prop :=
  ∀ (code : ErrCode) (info : Word) (s : State),
    (s.err = false → raiseError code info s = { s with err := true, errcode := code, errinfo := info }) ∧
    (s.err = true → raiseError code info s = s)

/-- R169, R205: a recorded error stays as it is through every step but a STATUS write with bit 2 set and a reset. -/
def Obligations.RecordedErrorStaysUntilCleared : Prop :=
  ∀ s t : State, s.err = true → s.rst = false → step s = .next t →
    (∀ rest, s.inputs ≠ .rst true :: rest) →
    (∀ w rest, s.inputs = .bus (.write 0x008 0xF w) :: rest → w.getLsbD 2 = false) →
    sameError s t

/-- R170: the interrupt output as a function of the four stored bits, after reset, on a completion, and after a clear. -/
def Obligations.InterruptLevel : Prop :=
  (∀ s : State, s.irq = true ↔ (s.ieDone = true ∧ s.done = true) ∨ (s.ieErr = true ∧ s.err = true)) ∧
  State.reset.irq = false ∧
  (∀ s : State, s.ieDone = true → (complete s).irq = true) ∧
  (∀ (s : State) (w : Word), w.getLsbD 1 = true → w.getLsbD 2 = true → (busWrite 0x008 0xF w s).irq = false) ∧
  (∀ (s : State) (w : Word), w.getLsbD 0 = false → w.getLsbD 1 = false → (busWrite 0x004 0xF w s).irq = false)

/-! ## The bus -/

/-- R62, R63: a misaligned transaction answers ERR (a read with data 0) and has no effect; so does a write without all four byte
enables; a read of fewer bytes is the 32-bit read. -/
def Obligations.MisalignedAndPartialAccesses : Prop :=
  ∀ (s : State) (a : Addr) (be : ByteEn) (w : Word),
    (a.toNat % 4 ≠ 0 →
      busStep (.read a be) s = { s with answer := some (.read 0 .err) } ∧
      busStep (.write a be w) s = { s with answer := some (.write .err) }) ∧
    (be ≠ 0xF → busStep (.write a be w) s = { s with answer := some (.write .err) }) ∧
    busStep (.read a be) s = busStep (.read a 0xF) s

/-- R64, R83: the write dispatch of an aligned write with all byte enables. -/
def Obligations.WriteDispatch : Prop :=
  ∀ (s : State) (a : Addr) (w : Word), a.toNat % 4 = 0 → ∃ t, busWrite a 0xF w s = { t with answer := some (.write .ok) } ∧
    (a = 0x004 → t = { s with ieDone := w.getLsbD 0, ieErr := w.getLsbD 1 }) ∧
    (a = 0x008 → t = writeStatus w s) ∧
    (a = 0x00C → s.busy = true → t = raiseError .busy (a.setWidth 32) s) ∧
    (a = 0x00C → s.busy = false → t = { s with busy := true, pending := w }) ∧
    (a = 0x060 → s.busy = true → t = raiseError .busy (a.setWidth 32) s) ∧
    (a = 0x060 → s.busy = false → t = { s with nodeSel := w.setWidth 9 }) ∧
    (a = 0x06C → s.busy = true → t = raiseError .busy (a.setWidth 32) s) ∧
    (a = 0x06C → s.busy = false → t = { s with actSel := w.setWidth 9 }) ∧
    (∀ sym : Sym, a.toNat = 0x400 + 4 * sym.toNat → s.busy = true → t = raiseError .busy (a.setWidth 32) s) ∧
    (∀ sym : Sym, a.toNat = 0x400 + 4 * sym.toNat → s.busy = false → t = writeFreq sym w s) ∧
    (a ≠ 0x004 → a ≠ 0x008 → a ≠ 0x00C → a ≠ 0x060 → a ≠ 0x06C →
      (∀ sym : Sym, a.toNat ≠ 0x400 + 4 * sym.toNat) → t = s)

/-- R65: a read has no side effect on the block's state (only the host's answer and the model's draw counter, log 3 and 4), an
aligned read answers OK, and an idle block gives the same data again. -/
def Obligations.ReadsHaveNoSideEffect : Prop :=
  ∀ (s : State) (a : Addr) (be : ByteEn), ∃ ans d,
    busStep (.read a be) s = { s with answer := some ans, draws := d } ∧
    (a.toNat % 4 = 0 → ∃ data, ans = .read data .ok) ∧
    (s.busy = false → d = s.draws ∧ (busStep (.read a be) (busStep (.read a be) s)).answer = some ans)

/-- R47: reads while busy. The listed registers are exact; STATUS is exact but for [9:3]; every other listed register is the free
value of this read, which nothing constrains, and the next free read draws another one (log 3). -/
def Obligations.ReadsWhileBusy : Prop :=
  ∀ (s : State), s.busy = true →
    readAnswer 0x000 s = some (.read 0x48554631 .ok) ∧
    readAnswer 0x004 s = some (.read s.ctrl .ok) ∧
    readAnswer 0x00C s = some (.read 0 .ok) ∧
    readAnswer 0x024 s = some (.read s.errinfo .ok) ∧
    readAnswer 0x060 s = some (.read (s.nodeSel.setWidth 32) .ok) ∧
    readAnswer 0x06C s = some (.read (s.actSel.setWidth 32) .ok) ∧
    (∃ v, readAnswer 0x008 s = some (.read v .ok) ∧
      v.getLsbD 0 = true ∧ v.getLsbD 1 = s.done ∧ v.getLsbD 2 = s.err ∧ v.extractLsb' 12 4 = s.errcode.bits ∧
      v.extractLsb' 3 7 = (Config.freeRead s.draws).extractLsb' 3 7) ∧
    (∀ (r : Reg) (a : Addr), r.offset = some a → r.busyRead = .any →
      readAnswer a s = some (.read (Config.freeRead s.draws) .ok) ∧ (busRead a s).draws = s.draws + 1)

/-- R48: reserved offsets read 0 and ignore writes with OK and no error, busy or not (that they read 0 while busy too is log 6); read-only registers ignore writes; reserved
bits of CTRL and of an idle block's STATUS read 0. -/
def Obligations.ReservedSpace : Prop :=
  ∀ (s : State) (a : Addr) (w : Word), a.toNat % 4 = 0 →
    ((a = 0x02C ∨ a = 0x03C ∨ (0x074 ≤ a.toNat ∧ a.toNat ≤ 0x3FC) ∨ 0x800 ≤ a.toNat) →
      readAnswer a s = some (.read 0 .ok) ∧
      busWrite a 0xF w s = { s with answer := some (.write .ok) }) ∧
    ((a = 0x000 ∨ (0x010 ≤ a.toNat ∧ a.toNat ≤ 0x05C) ∨ a = 0x064 ∨ a = 0x068 ∨ a = 0x070) →
      busWrite a 0xF w s = { s with answer := some (.write .ok) }) ∧
    (∃ v, readAnswer 0x004 s = some (.read v .ok) ∧ v.toNat < 4) ∧
    (s.busy = false → ∃ v, readAnswer 0x008 s = some (.read v .ok) ∧
      v.extractLsb' 6 2 = 0 ∧ v.extractLsb' 10 2 = 0 ∧ v.extractLsb' 16 16 = 0)

/-- R20: the register map: each listed register is at its offset, no two share one, and every other aligned offset is reserved. -/
def Obligations.RegisterMapIsExact : Prop :=
  (∀ (r : Reg) (a : Addr), r.offset = some a → a.toNat % 4 = 0 ∧ regAt a = r) ∧
  (∀ a : Addr, a.toNat % 4 = 0 → regAt a ≠ .reserved → (regAt a).offset = some a)

/-- R23: STATUS: its fields as an idle block shows them, and its write rules, busy or not. -/
def Obligations.StatusRegister : Prop :=
  ∀ (s : State) (w : Word),
    (s.busy = false → ∃ v, readAnswer 0x008 s = some (.read v .ok) ∧
      v.getLsbD 0 = false ∧ v.getLsbD 1 = s.done ∧ v.getLsbD 2 = s.err ∧ v.getLsbD 3 = s.extActive ∧
      v.getLsbD 4 = s.extValid ∧ v.getLsbD 5 = s.extEnd ∧ v.extractLsb' 6 2 = 0 ∧
      v.extractLsb' 8 2 = s.phase.bits ∧ v.extractLsb' 10 2 = 0 ∧ v.extractLsb' 12 4 = s.errcode.bits ∧
      v.extractLsb' 16 16 = 0) ∧
    (s.busy = true → ∃ v, readAnswer 0x008 s = some (.read v .ok) ∧ v.getLsbD 0 = true) ∧
    ∃ t, busWrite 0x008 0xF w s = t ∧ t.answer = some (.write .ok) ∧
      t.done = (s.done && !w.getLsbD 1) ∧
      (w.getLsbD 2 = true → t.err = false ∧ t.errcode = .none ∧ t.errinfo = 0) ∧
      (w.getLsbD 2 = false → sameError s t) ∧
      t.results = s.results ∧ t.busy = s.busy ∧ t.pending = s.pending ∧ t.ieDone = s.ieDone ∧
      t.ieErr = s.ieErr ∧ t.nodeSel = s.nodeSel ∧ t.actSel = s.actSel

/-- R21, R22: ID is constant; CTRL keeps exactly its two enable bits, busy or not. -/
def Obligations.IdAndCtrl : Prop :=
  ∀ (s : State) (w : Word),
    readAnswer 0x000 s = some (.read 0x48554631 .ok) ∧
    busWrite 0x000 0xF w s = { s with answer := some (.write .ok) } ∧
    readAnswer 0x004 (busWrite 0x004 0xF w s) = some (.read (w &&& 3) .ok) ∧
    busWrite 0x004 0xF w s =
      { s with ieDone := w.getLsbD 0, ieErr := w.getLsbD 1, answer := some (.write .ok) }

/-- R39: the node readout of an idle block. -/
def Obligations.NodeReadout : Prop :=
  ∀ s : State, Inv s → s.busy = false → ∃ info count,
    readAnswer 0x064 s = some (.read info .ok) ∧ readAnswer 0x068 s = some (.read count .ok) ∧
    (s.nnode.toNat ≤ s.nodeSel.toNat → info = 0 ∧ count = 0) ∧
    (s.nodeSel.toNat < s.nnode.toNat → ∃ n, nodeAt s.nodes s.nodeSel = some n ∧ count = n.count ∧
      info.getLsbD 31 = true ∧ info.getLsbD 30 = n.isInternal ∧ info.extractLsb' 26 4 = 0 ∧
      (∀ sym c, n = .leaf sym c →
        info.extractLsb' 18 8 = sym ∧ info.extractLsb' 9 9 = 0 ∧ info.extractLsb' 0 9 = 0) ∧
      (∀ c l r, n = .internal c l r →
        info.extractLsb' 18 8 = 0 ∧ info.extractLsb' 9 9 = r ∧ info.extractLsb' 0 9 = l))

/-- R38, R41: the selection registers keep the low 9 bits of a write and read them back, drop a write while busy with BUSY, and
ACT_ENTRY shows the selected position. -/
def Obligations.SelectionRegisters : Prop :=
  ∀ (s : State) (w : Word),
    (s.busy = false →
      readAnswer 0x060 (busWrite 0x060 0xF w s) = some (.read (w &&& 0x1FF) .ok) ∧
      readAnswer 0x06C (busWrite 0x06C 0xF w s) = some (.read (w &&& 0x1FF) .ok)) ∧
    (s.busy = true → ∀ a : Addr, (a = 0x060 ∨ a = 0x06C) →
      ∃ t, busWrite a 0xF w s = t ∧ errorRecorded .busy (a.setWidth 32) s t ∧ t.nodeSel = s.nodeSel ∧
        t.actSel = s.actSel ∧ t.results = s.results ∧ t.busy = true ∧ t.pending = s.pending ∧ t.done = s.done) ∧
    (s.busy = false → ∃ v, readAnswer 0x070 s = some (.read v .ok) ∧
      (∀ x, s.act[s.actSel.toNat]? = some x →
        v.getLsbD 31 = true ∧ v.extractLsb' 9 22 = 0 ∧ v.extractLsb' 0 9 = x) ∧
      (s.act.length ≤ s.actSel.toNat → v = 0))

/-- R40: FREQ: an idle block stores all 32 bits of a write to one entry and no other, a busy one drops it with BUSY; no command but
CLEAR_FREQ changes FREQ. -/
def Obligations.FreqTable : Prop :=
  (∀ (s : State) (sym : Sym) (w : Word) (a : Addr), Reg.offset (.freq sym) = some a →
    (s.busy = false →
      readAnswer a (busWrite a 0xF w s) = some (.read w .ok) ∧
      (∀ other, other ≠ sym → readFreq (busWrite a 0xF w s) other = readFreq s other) ∧
      sameTree s (busWrite a 0xF w s) ∧ sameExtractor s (busWrite a 0xF w s) ∧
      sameError s (busWrite a 0xF w s)) ∧
    (s.busy = true → (busWrite a 0xF w s).freq = s.freq ∧
      errorRecorded .busy (BitVec.ofNat 32 (0x400 + 4 * sym.toNat)) s (busWrite a 0xF w s))) ∧
  (∀ (s t : State) (i : Instr), i ≠ .clearFreq → exec i s = .next t → t.freq = s.freq)

/-- R37: OUT_CODEk of an idle block shows bits 32k+31..32k of the code register; while a triple is held, bit j of the register is
its path bit j, and every bit from its length on is 0. -/
def Obligations.OutCodeWords : Prop :=
  ∀ s : State, Inv s → s.busy = false →
    (∀ (k : BitVec 3) (a : Addr), Reg.offset (.outCode k) = some a → ∃ v,
      readAnswer a s = some (.read v .ok) ∧
      ∀ b, b < 32 → v.getLsbD b = s.outCode.getLsbD (32 * k.toNat + b)) ∧
    (s.extValid = true → ∃ q k tr, s.seq = some q ∧ s.extIdx.toNat = k + 1 ∧ q[k]? = some tr ∧
      s.outLen.toNat = tr.code.length ∧ ∀ j, s.outCode.getLsbD j = tr.code.getD j false) ∧
    (∀ j, s.outLen.toNat ≤ j → s.outCode.getLsbD j = false)

/-- R26 to R28, R30 to R36: the result registers of an idle block, as numbers. -/
def Obligations.ResultRegisters : Prop :=
  ∀ s : State, Inv s → s.busy = false →
    (∃ v, readAnswer 0x010 s = some (.read v .ok) ∧
      v.toNat = (s.nodes.filter fun n => !n.isInternal).length) ∧
    (∃ v, readAnswer 0x014 s = some (.read v .ok) ∧ v.toNat = s.nodes.length) ∧
    (∃ v, readAnswer 0x018 s = some (.read v .ok) ∧ v.toNat = s.act.length) ∧
    (∃ v, readAnswer 0x01C s = some (.read v .ok) ∧
      (s.phase = .tree → v.toNat + 1 = s.nodes.length) ∧ (s.phase ≠ .tree → v = 0)) ∧
    readAnswer 0x020 s = some (.read s.total .ok) ∧
    readAnswer 0x024 s = some (.read s.errinfo .ok) ∧
    (∃ v, readAnswer 0x028 s = some (.read v .ok) ∧ v.toNat = s.extIdx.toNat ∧ v.toNat ≤ 256) ∧
    (∃ v, readAnswer 0x030 s = some (.read v .ok) ∧ v.toNat = s.outSym.toNat) ∧
    (∃ v, readAnswer 0x034 s = some (.read v .ok) ∧ v.toNat = s.outLen.toNat) ∧
    readAnswer 0x038 s = some (.read s.outCount .ok)

/-! ## Reset -/

/-- R190: every register's value after reset, and `irq`. -/
def Obligations.ResetValues : Prop :=
  readAnswer 0x000 State.reset = some (.read 0x48554631 .ok) ∧
  (∀ (r : Reg) (a : Addr), r ≠ .id → r.offset = some a → readAnswer a State.reset = some (.read 0 .ok)) ∧
  State.reset.busy = false ∧ State.reset.pending = 0 ∧ State.reset.phase = .none ∧ State.reset.act = [] ∧
  (∀ n, readAnswer 0x064 { State.reset with nodeSel := n } = some (.read 0 .ok)) ∧
  State.reset.irq = false

/-- R191: asserting `rst` puts every piece of the block's state at its reset value, whatever was pending; the engine's turns keep it
there; deasserting it leaves the block idle at those values. (The host's last answer and the draw counter are not the block's.) -/
def Obligations.ResetLine : Prop :=
  ∀ (s : State) (rest : List Input),
    (s.inputs = .rst true :: rest → ∃ ans d, step s = .next
      { State.reset with rst := true, inputs := rest, answer := ans, draws := d }) ∧
    (s.inputs = .engine :: rest → s.rst = true → ∃ ans d, step s = .next
      { State.reset with rst := true, inputs := rest, answer := ans, draws := d }) ∧
    (Inv s → s.inputs = .rst false :: rest → s.rst = true → ∃ ans d, step s = .next
      { State.reset with inputs := rest, answer := ans, draws := d })

/-! ## The encode sequence -/

/-- R195, steps 5 and 6. The STATUS read of an idle block with no error recorded tells the host whether there is a tree, and one
after a SEED or BUILD that overflowed that the table was too large. With a tree, the loop of step 6 reads every triple of the
leaf sequence in order, one per EXT_NEXT, and ends with the one EXT_NEXT more that reads EXT_END, which reads no triple. -/
def Obligations.EncodeLoopReadsEveryTriple : Prop :=
  (∀ s : State, s.busy = false → s.err = false →
    (verdictOf (readData 0x008 s) = .tree ↔ s.phase = .tree) ∧
    (verdictOf (readData 0x008 s) = .noTree ↔ s.phase = .empty) ∧
    verdictOf (readData 0x008 s) ≠ .tooLarge) ∧
  (∀ (s : State) (i : Instr), (i = .seed ∨ i = .build) → ¬ fits s →
    s.rst = false → s.busy = false → s.err = false →
    ∃ t, runCommand i s = .next t ∧ verdictOf (readData 0x008 t) = .tooLarge) ∧
  (∀ (s : State) (polls : Nat), Inv s → s.rst = false → s.busy = false → s.err = false → s.phase = .tree →
    ∃ q, s.seq = some q ∧
      hostExtraction polls s = some
        (⟨polls, q.map (fun tr => ⟨polls, some (decide (32 < tr.code.length))⟩) ++ [⟨polls, none⟩]⟩, q.map readoutOf))
end

