-- ==== Sys2Proof/Laws/Selector.lean ====
section
/-! SUPPORT. What the node lookup, the counts and the selection can do (41_priority_node_selector.md). -/

namespace Sys2Proof.Machine

open Sys2Proof

/-- A lookup succeeds exactly below `nnode`. -/
theorem nodeAt_eq_some_iff {nodes : List Node} {i : NodeIdx} {n : Node} :
    nodeAt nodes i = some n ↔ ∃ h : i.toNat < nodes.length, nodes[i.toNat] = n := by
  simp [nodeAt, List.getElem?_eq_some_iff]

/-- Appending a record does not change the lookups below `nnode`. -/
theorem nodeAt_append {nodes : List Node} {i : NodeIdx} {n k : Node} (h : nodeAt nodes i = some n) :
    nodeAt (nodes ++ [k]) i = some n := by
  obtain ⟨hi, rfl⟩ := nodeAt_eq_some_iff.mp h
  exact nodeAt_eq_some_iff.mpr ⟨by simp; omega, by simp [List.getElem_append_left hi]⟩

/-- The counts stand at the positions of their members. -/
theorem countsOf_cases {nodes : List Node} {act : List NodeIdx} {cs : List Word} (h : countsOf nodes act = some cs) :
    cs.length = act.length ∧
      ∀ (i : Nat) (x : NodeIdx), act[i]? = some x → ∃ n, nodeAt nodes x = some n ∧ cs[i]? = some n.count := by
  induction act generalizing cs with
  | nil => simp_all [countsOf]
  | cons y ys ih =>
    simp only [countsOf] at h
    split at h
    · next n ds hn hds =>
      cases h
      obtain ⟨hl, hi⟩ := ih hds
      refine ⟨by simp [hl], fun i x hx => ?_⟩
      cases i with
      | zero => simp at hx; subst hx; exact ⟨n, hn, by simp⟩
      | succ i => simpa using hi i x (by simpa using hx)
    · cases h

/-- The counts exist when every member is an allocated node. -/
theorem countsOf_isSome {nodes : List Node} {act : List NodeIdx}
    (h : ∀ y ∈ act, (nodeAt nodes y).isSome) : ∃ cs, countsOf nodes act = some cs := by
  induction act with
  | nil => exact ⟨[], rfl⟩
  | cons y ys ih =>
    obtain ⟨cs, hcs⟩ := ih fun z hz => h z (by simp [hz])
    obtain ⟨n, hn⟩ := Option.isSome_iff_exists.mp (h y (by simp))
    exact ⟨n.count :: cs, by simp [countsOf, hn, hcs]⟩

/-- The least count is one of the counts. -/
theorem minCount_mem (c : Word) (cs : List Word) : minCount c cs ∈ c :: cs := by
  induction cs generalizing c with
  | nil => simp [minCount]
  | cons d ds ih =>
    simp only [minCount]
    split
    · exact List.mem_cons_of_mem _ (ih d)
    · simp

/-- The least count is at most each of the counts. -/
theorem minCount_le (c : Word) (cs : List Word) : ∀ d ∈ c :: cs, (minCount c cs).toNat ≤ d.toNat := by
  induction cs generalizing c with
  | nil => simp [minCount]
  | cons d ds ih =>
    intro e he
    simp only [minCount]
    split <;> rcases List.mem_cons.mp he with rfl | he
    · omega
    · exact ih d e he
    · exact le_rfl
    · have := ih d e he; omega

/-- The position found holds the value, and no earlier one does. -/
theorem firstPos_cases {m : Word} {cs : List Word} (h : m ∈ cs) :
    cs[firstPos m cs]? = some m ∧ ∀ i, i < firstPos m cs → cs[i]? ≠ some m := by
  induction cs with
  | nil => simp at h
  | cons c cs ih =>
    simp only [firstPos]
    split
    · next hc => simp [hc]
    · next hc =>
      obtain ⟨h1, h2⟩ := ih ((List.mem_cons.mp h).resolve_left fun e => hc e.symm)
      refine ⟨by simpa using h1, fun i hi => ?_⟩
      cases i with
      | zero => simpa using hc
      | succ i => simpa using h2 i (by omega)

/-- What a selected position is: the earliest of a least count. -/
theorem selectPos_cases {cs : List Word} {p : Nat} (h : selectPos cs = some p) :
    ∃ m, cs[p]? = some m ∧ (∀ d ∈ cs, m.toNat ≤ d.toNat) ∧ ∀ i, i < p → cs[i]? ≠ some m := by
  cases cs with
  | nil => simp [selectPos] at h
  | cons c cs =>
    cases h
    obtain ⟨h1, h2⟩ := firstPos_cases (minCount_mem c cs)
    exact ⟨_, h1, minCount_le c cs, h2⟩

/-- All a selection can do. -/
theorem selectRemove_cases {nodes : List Node} {act rest : List NodeIdx} {x : NodeIdx}
    (h : selectRemove nodes act = some (x, rest)) :
    ∃ cs p, countsOf nodes act = some cs ∧ selectPos cs = some p ∧ act[p]? = some x ∧ rest = act.eraseIdx p := by
  unfold selectRemove at h
  split at h
  · cases h
  · next cs hcs =>
    split at h
    · cases h
    · next p hp =>
      split at h
      · cases h
      · next y hy => cases h; exact ⟨cs, p, hcs, hp, hy, rfl⟩

/-- A selection removes one member. -/
theorem selectRemove_length {nodes : List Node} {act rest : List NodeIdx} {x : NodeIdx}
    (h : selectRemove nodes act = some (x, rest)) : rest.length + 1 = act.length := by
  obtain ⟨_, p, _, _, hx, rfl⟩ := selectRemove_cases h
  obtain ⟨hp, _⟩ := List.getElem?_eq_some_iff.mp hx
  rw [List.length_eraseIdx_of_lt hp]; omega

/-- A selection only moves its member to the front. -/
theorem selectRemove_perm {nodes : List Node} {act rest : List NodeIdx} {x : NodeIdx}
    (h : selectRemove nodes act = some (x, rest)) : act.Perm (x :: rest) := by
  obtain ⟨_, p, _, _, hx, rfl⟩ := selectRemove_cases h
  obtain ⟨hp, rfl⟩ := List.getElem?_eq_some_iff.mp hx
  exact (List.getElem_cons_eraseIdx_perm hp).symm

end Sys2Proof.Machine
end

