-- ==== Sys2Proof/Laws/State.lean ====
section
/-! SUPPORT. One lemma per field per update of State: what each shared update leaves in each field. -/

namespace Sys2Proof.Machine

open Sys2Proof

/-! ### complete -/

@[simp] theorem complete_freq (s : State) : (complete s).freq = s.freq := rfl
@[simp] theorem complete_nodes (s : State) : (complete s).nodes = s.nodes := rfl
@[simp] theorem complete_act (s : State) : (complete s).act = s.act := rfl
@[simp] theorem complete_nleaf (s : State) : (complete s).nleaf = s.nleaf := rfl
@[simp] theorem complete_root (s : State) : (complete s).root = s.root := rfl
@[simp] theorem complete_total (s : State) : (complete s).total = s.total := rfl
@[simp] theorem complete_phase (s : State) : (complete s).phase = s.phase := rfl
@[simp] theorem complete_extActive (s : State) : (complete s).extActive = s.extActive := rfl
@[simp] theorem complete_extValid (s : State) : (complete s).extValid = s.extValid := rfl
@[simp] theorem complete_extEnd (s : State) : (complete s).extEnd = s.extEnd := rfl
@[simp] theorem complete_extIdx (s : State) : (complete s).extIdx = s.extIdx := rfl
@[simp] theorem complete_outSym (s : State) : (complete s).outSym = s.outSym := rfl
@[simp] theorem complete_outLen (s : State) : (complete s).outLen = s.outLen := rfl
@[simp] theorem complete_outCount (s : State) : (complete s).outCount = s.outCount := rfl
@[simp] theorem complete_outCode (s : State) : (complete s).outCode = s.outCode := rfl
@[simp] theorem complete_busy (s : State) : (complete s).busy = false := rfl
@[simp] theorem complete_pending (s : State) : (complete s).pending = s.pending := rfl
@[simp] theorem complete_done (s : State) : (complete s).done = true := rfl
@[simp] theorem complete_err (s : State) : (complete s).err = s.err := rfl
@[simp] theorem complete_errcode (s : State) : (complete s).errcode = s.errcode := rfl
@[simp] theorem complete_errinfo (s : State) : (complete s).errinfo = s.errinfo := rfl
@[simp] theorem complete_ieDone (s : State) : (complete s).ieDone = s.ieDone := rfl
@[simp] theorem complete_ieErr (s : State) : (complete s).ieErr = s.ieErr := rfl
@[simp] theorem complete_nodeSel (s : State) : (complete s).nodeSel = s.nodeSel := rfl
@[simp] theorem complete_actSel (s : State) : (complete s).actSel = s.actSel := rfl
@[simp] theorem complete_rst (s : State) : (complete s).rst = s.rst := rfl
@[simp] theorem complete_inputs (s : State) : (complete s).inputs = s.inputs := rfl
@[simp] theorem complete_answer (s : State) : (complete s).answer = s.answer := rfl
@[simp] theorem complete_draws (s : State) : (complete s).draws = s.draws := rfl

/-! ### issue -/

@[simp] theorem issue_freq (w : Word) (s : State) : (issue w s).freq = s.freq := rfl
@[simp] theorem issue_nodes (w : Word) (s : State) : (issue w s).nodes = s.nodes := rfl
@[simp] theorem issue_act (w : Word) (s : State) : (issue w s).act = s.act := rfl
@[simp] theorem issue_nleaf (w : Word) (s : State) : (issue w s).nleaf = s.nleaf := rfl
@[simp] theorem issue_root (w : Word) (s : State) : (issue w s).root = s.root := rfl
@[simp] theorem issue_total (w : Word) (s : State) : (issue w s).total = s.total := rfl
@[simp] theorem issue_phase (w : Word) (s : State) : (issue w s).phase = s.phase := rfl
@[simp] theorem issue_extActive (w : Word) (s : State) : (issue w s).extActive = s.extActive := rfl
@[simp] theorem issue_extValid (w : Word) (s : State) : (issue w s).extValid = s.extValid := rfl
@[simp] theorem issue_extEnd (w : Word) (s : State) : (issue w s).extEnd = s.extEnd := rfl
@[simp] theorem issue_extIdx (w : Word) (s : State) : (issue w s).extIdx = s.extIdx := rfl
@[simp] theorem issue_outSym (w : Word) (s : State) : (issue w s).outSym = s.outSym := rfl
@[simp] theorem issue_outLen (w : Word) (s : State) : (issue w s).outLen = s.outLen := rfl
@[simp] theorem issue_outCount (w : Word) (s : State) : (issue w s).outCount = s.outCount := rfl
@[simp] theorem issue_outCode (w : Word) (s : State) : (issue w s).outCode = s.outCode := rfl
@[simp] theorem issue_busy (w : Word) (s : State) : (issue w s).busy = true := rfl
@[simp] theorem issue_pending (w : Word) (s : State) : (issue w s).pending = w := rfl
@[simp] theorem issue_done (w : Word) (s : State) : (issue w s).done = s.done := rfl
@[simp] theorem issue_err (w : Word) (s : State) : (issue w s).err = s.err := rfl
@[simp] theorem issue_errcode (w : Word) (s : State) : (issue w s).errcode = s.errcode := rfl
@[simp] theorem issue_errinfo (w : Word) (s : State) : (issue w s).errinfo = s.errinfo := rfl
@[simp] theorem issue_ieDone (w : Word) (s : State) : (issue w s).ieDone = s.ieDone := rfl
@[simp] theorem issue_ieErr (w : Word) (s : State) : (issue w s).ieErr = s.ieErr := rfl
@[simp] theorem issue_nodeSel (w : Word) (s : State) : (issue w s).nodeSel = s.nodeSel := rfl
@[simp] theorem issue_actSel (w : Word) (s : State) : (issue w s).actSel = s.actSel := rfl
@[simp] theorem issue_rst (w : Word) (s : State) : (issue w s).rst = s.rst := rfl
@[simp] theorem issue_inputs (w : Word) (s : State) : (issue w s).inputs = s.inputs := rfl
@[simp] theorem issue_answer (w : Word) (s : State) : (issue w s).answer = s.answer := rfl
@[simp] theorem issue_draws (w : Word) (s : State) : (issue w s).draws = s.draws := rfl

/-! ### extClear -/

@[simp] theorem extClear_freq (s : State) : (extClear s).freq = s.freq := rfl
@[simp] theorem extClear_nodes (s : State) : (extClear s).nodes = s.nodes := rfl
@[simp] theorem extClear_act (s : State) : (extClear s).act = s.act := rfl
@[simp] theorem extClear_nleaf (s : State) : (extClear s).nleaf = s.nleaf := rfl
@[simp] theorem extClear_root (s : State) : (extClear s).root = s.root := rfl
@[simp] theorem extClear_total (s : State) : (extClear s).total = s.total := rfl
@[simp] theorem extClear_phase (s : State) : (extClear s).phase = s.phase := rfl
@[simp] theorem extClear_extActive (s : State) : (extClear s).extActive = false := rfl
@[simp] theorem extClear_extValid (s : State) : (extClear s).extValid = false := rfl
@[simp] theorem extClear_extEnd (s : State) : (extClear s).extEnd = false := rfl
@[simp] theorem extClear_extIdx (s : State) : (extClear s).extIdx = 0 := rfl
@[simp] theorem extClear_outSym (s : State) : (extClear s).outSym = 0 := rfl
@[simp] theorem extClear_outLen (s : State) : (extClear s).outLen = 0 := rfl
@[simp] theorem extClear_outCount (s : State) : (extClear s).outCount = 0 := rfl
@[simp] theorem extClear_outCode (s : State) : (extClear s).outCode = 0 := rfl
@[simp] theorem extClear_busy (s : State) : (extClear s).busy = s.busy := rfl
@[simp] theorem extClear_pending (s : State) : (extClear s).pending = s.pending := rfl
@[simp] theorem extClear_done (s : State) : (extClear s).done = s.done := rfl
@[simp] theorem extClear_err (s : State) : (extClear s).err = s.err := rfl
@[simp] theorem extClear_errcode (s : State) : (extClear s).errcode = s.errcode := rfl
@[simp] theorem extClear_errinfo (s : State) : (extClear s).errinfo = s.errinfo := rfl
@[simp] theorem extClear_ieDone (s : State) : (extClear s).ieDone = s.ieDone := rfl
@[simp] theorem extClear_ieErr (s : State) : (extClear s).ieErr = s.ieErr := rfl
@[simp] theorem extClear_nodeSel (s : State) : (extClear s).nodeSel = s.nodeSel := rfl
@[simp] theorem extClear_actSel (s : State) : (extClear s).actSel = s.actSel := rfl
@[simp] theorem extClear_rst (s : State) : (extClear s).rst = s.rst := rfl
@[simp] theorem extClear_inputs (s : State) : (extClear s).inputs = s.inputs := rfl
@[simp] theorem extClear_answer (s : State) : (extClear s).answer = s.answer := rfl
@[simp] theorem extClear_draws (s : State) : (extClear s).draws = s.draws := rfl

/-! ### writeFreq -/

@[simp] theorem writeFreq_freq (sym : Sym) (w : Word) (s : State) : (writeFreq sym w s).freq = s.freq.set sym.toNat w sym.isLt := rfl
@[simp] theorem writeFreq_nodes (sym : Sym) (w : Word) (s : State) : (writeFreq sym w s).nodes = s.nodes := rfl
@[simp] theorem writeFreq_act (sym : Sym) (w : Word) (s : State) : (writeFreq sym w s).act = s.act := rfl
@[simp] theorem writeFreq_nleaf (sym : Sym) (w : Word) (s : State) : (writeFreq sym w s).nleaf = s.nleaf := rfl
@[simp] theorem writeFreq_root (sym : Sym) (w : Word) (s : State) : (writeFreq sym w s).root = s.root := rfl
@[simp] theorem writeFreq_total (sym : Sym) (w : Word) (s : State) : (writeFreq sym w s).total = s.total := rfl
@[simp] theorem writeFreq_phase (sym : Sym) (w : Word) (s : State) : (writeFreq sym w s).phase = s.phase := rfl
@[simp] theorem writeFreq_extActive (sym : Sym) (w : Word) (s : State) : (writeFreq sym w s).extActive = s.extActive := rfl
@[simp] theorem writeFreq_extValid (sym : Sym) (w : Word) (s : State) : (writeFreq sym w s).extValid = s.extValid := rfl
@[simp] theorem writeFreq_extEnd (sym : Sym) (w : Word) (s : State) : (writeFreq sym w s).extEnd = s.extEnd := rfl
@[simp] theorem writeFreq_extIdx (sym : Sym) (w : Word) (s : State) : (writeFreq sym w s).extIdx = s.extIdx := rfl
@[simp] theorem writeFreq_outSym (sym : Sym) (w : Word) (s : State) : (writeFreq sym w s).outSym = s.outSym := rfl
@[simp] theorem writeFreq_outLen (sym : Sym) (w : Word) (s : State) : (writeFreq sym w s).outLen = s.outLen := rfl
@[simp] theorem writeFreq_outCount (sym : Sym) (w : Word) (s : State) : (writeFreq sym w s).outCount = s.outCount := rfl
@[simp] theorem writeFreq_outCode (sym : Sym) (w : Word) (s : State) : (writeFreq sym w s).outCode = s.outCode := rfl
@[simp] theorem writeFreq_busy (sym : Sym) (w : Word) (s : State) : (writeFreq sym w s).busy = s.busy := rfl
@[simp] theorem writeFreq_pending (sym : Sym) (w : Word) (s : State) : (writeFreq sym w s).pending = s.pending := rfl
@[simp] theorem writeFreq_done (sym : Sym) (w : Word) (s : State) : (writeFreq sym w s).done = s.done := rfl
@[simp] theorem writeFreq_err (sym : Sym) (w : Word) (s : State) : (writeFreq sym w s).err = s.err := rfl
@[simp] theorem writeFreq_errcode (sym : Sym) (w : Word) (s : State) : (writeFreq sym w s).errcode = s.errcode := rfl
@[simp] theorem writeFreq_errinfo (sym : Sym) (w : Word) (s : State) : (writeFreq sym w s).errinfo = s.errinfo := rfl
@[simp] theorem writeFreq_ieDone (sym : Sym) (w : Word) (s : State) : (writeFreq sym w s).ieDone = s.ieDone := rfl
@[simp] theorem writeFreq_ieErr (sym : Sym) (w : Word) (s : State) : (writeFreq sym w s).ieErr = s.ieErr := rfl
@[simp] theorem writeFreq_nodeSel (sym : Sym) (w : Word) (s : State) : (writeFreq sym w s).nodeSel = s.nodeSel := rfl
@[simp] theorem writeFreq_actSel (sym : Sym) (w : Word) (s : State) : (writeFreq sym w s).actSel = s.actSel := rfl
@[simp] theorem writeFreq_rst (sym : Sym) (w : Word) (s : State) : (writeFreq sym w s).rst = s.rst := rfl
@[simp] theorem writeFreq_inputs (sym : Sym) (w : Word) (s : State) : (writeFreq sym w s).inputs = s.inputs := rfl
@[simp] theorem writeFreq_answer (sym : Sym) (w : Word) (s : State) : (writeFreq sym w s).answer = s.answer := rfl
@[simp] theorem writeFreq_draws (sym : Sym) (w : Word) (s : State) : (writeFreq sym w s).draws = s.draws := rfl

/-! ### clearFreqTable -/

@[simp] theorem clearFreqTable_freq (s : State) : (clearFreqTable s).freq = Vector.replicate 256 0 := rfl
@[simp] theorem clearFreqTable_nodes (s : State) : (clearFreqTable s).nodes = s.nodes := rfl
@[simp] theorem clearFreqTable_act (s : State) : (clearFreqTable s).act = s.act := rfl
@[simp] theorem clearFreqTable_nleaf (s : State) : (clearFreqTable s).nleaf = s.nleaf := rfl
@[simp] theorem clearFreqTable_root (s : State) : (clearFreqTable s).root = s.root := rfl
@[simp] theorem clearFreqTable_total (s : State) : (clearFreqTable s).total = s.total := rfl
@[simp] theorem clearFreqTable_phase (s : State) : (clearFreqTable s).phase = s.phase := rfl
@[simp] theorem clearFreqTable_extActive (s : State) : (clearFreqTable s).extActive = s.extActive := rfl
@[simp] theorem clearFreqTable_extValid (s : State) : (clearFreqTable s).extValid = s.extValid := rfl
@[simp] theorem clearFreqTable_extEnd (s : State) : (clearFreqTable s).extEnd = s.extEnd := rfl
@[simp] theorem clearFreqTable_extIdx (s : State) : (clearFreqTable s).extIdx = s.extIdx := rfl
@[simp] theorem clearFreqTable_outSym (s : State) : (clearFreqTable s).outSym = s.outSym := rfl
@[simp] theorem clearFreqTable_outLen (s : State) : (clearFreqTable s).outLen = s.outLen := rfl
@[simp] theorem clearFreqTable_outCount (s : State) : (clearFreqTable s).outCount = s.outCount := rfl
@[simp] theorem clearFreqTable_outCode (s : State) : (clearFreqTable s).outCode = s.outCode := rfl
@[simp] theorem clearFreqTable_busy (s : State) : (clearFreqTable s).busy = s.busy := rfl
@[simp] theorem clearFreqTable_pending (s : State) : (clearFreqTable s).pending = s.pending := rfl
@[simp] theorem clearFreqTable_done (s : State) : (clearFreqTable s).done = s.done := rfl
@[simp] theorem clearFreqTable_err (s : State) : (clearFreqTable s).err = s.err := rfl
@[simp] theorem clearFreqTable_errcode (s : State) : (clearFreqTable s).errcode = s.errcode := rfl
@[simp] theorem clearFreqTable_errinfo (s : State) : (clearFreqTable s).errinfo = s.errinfo := rfl
@[simp] theorem clearFreqTable_ieDone (s : State) : (clearFreqTable s).ieDone = s.ieDone := rfl
@[simp] theorem clearFreqTable_ieErr (s : State) : (clearFreqTable s).ieErr = s.ieErr := rfl
@[simp] theorem clearFreqTable_nodeSel (s : State) : (clearFreqTable s).nodeSel = s.nodeSel := rfl
@[simp] theorem clearFreqTable_actSel (s : State) : (clearFreqTable s).actSel = s.actSel := rfl
@[simp] theorem clearFreqTable_rst (s : State) : (clearFreqTable s).rst = s.rst := rfl
@[simp] theorem clearFreqTable_inputs (s : State) : (clearFreqTable s).inputs = s.inputs := rfl
@[simp] theorem clearFreqTable_answer (s : State) : (clearFreqTable s).answer = s.answer := rfl
@[simp] theorem clearFreqTable_draws (s : State) : (clearFreqTable s).draws = s.draws := rfl

/-! ### seedClear -/

@[simp] theorem seedClear_freq (s : State) : (seedClear s).freq = s.freq := rfl
@[simp] theorem seedClear_nodes (s : State) : (seedClear s).nodes = [] := rfl
@[simp] theorem seedClear_act (s : State) : (seedClear s).act = [] := rfl
@[simp] theorem seedClear_nleaf (s : State) : (seedClear s).nleaf = 0 := rfl
@[simp] theorem seedClear_root (s : State) : (seedClear s).root = 0 := rfl
@[simp] theorem seedClear_total (s : State) : (seedClear s).total = 0 := rfl
@[simp] theorem seedClear_phase (s : State) : (seedClear s).phase = .none := rfl
@[simp] theorem seedClear_extActive (s : State) : (seedClear s).extActive = false := rfl
@[simp] theorem seedClear_extValid (s : State) : (seedClear s).extValid = false := rfl
@[simp] theorem seedClear_extEnd (s : State) : (seedClear s).extEnd = false := rfl
@[simp] theorem seedClear_extIdx (s : State) : (seedClear s).extIdx = 0 := rfl
@[simp] theorem seedClear_outSym (s : State) : (seedClear s).outSym = 0 := rfl
@[simp] theorem seedClear_outLen (s : State) : (seedClear s).outLen = 0 := rfl
@[simp] theorem seedClear_outCount (s : State) : (seedClear s).outCount = 0 := rfl
@[simp] theorem seedClear_outCode (s : State) : (seedClear s).outCode = 0 := rfl
@[simp] theorem seedClear_busy (s : State) : (seedClear s).busy = s.busy := rfl
@[simp] theorem seedClear_pending (s : State) : (seedClear s).pending = s.pending := rfl
@[simp] theorem seedClear_done (s : State) : (seedClear s).done = s.done := rfl
@[simp] theorem seedClear_err (s : State) : (seedClear s).err = s.err := rfl
@[simp] theorem seedClear_errcode (s : State) : (seedClear s).errcode = s.errcode := rfl
@[simp] theorem seedClear_errinfo (s : State) : (seedClear s).errinfo = s.errinfo := rfl
@[simp] theorem seedClear_ieDone (s : State) : (seedClear s).ieDone = s.ieDone := rfl
@[simp] theorem seedClear_ieErr (s : State) : (seedClear s).ieErr = s.ieErr := rfl
@[simp] theorem seedClear_nodeSel (s : State) : (seedClear s).nodeSel = s.nodeSel := rfl
@[simp] theorem seedClear_actSel (s : State) : (seedClear s).actSel = s.actSel := rfl
@[simp] theorem seedClear_rst (s : State) : (seedClear s).rst = s.rst := rfl
@[simp] theorem seedClear_inputs (s : State) : (seedClear s).inputs = s.inputs := rfl
@[simp] theorem seedClear_answer (s : State) : (seedClear s).answer = s.answer := rfl
@[simp] theorem seedClear_draws (s : State) : (seedClear s).draws = s.draws := rfl

/-! ### seedTable -/

@[simp] theorem seedTable_freq (s : State) : (seedTable s).freq = s.freq := rfl
@[simp] theorem seedTable_nodes (s : State) : (seedTable s).nodes = seedLeaves s.freq := rfl
@[simp] theorem seedTable_act (s : State) : (seedTable s).act = seedAct (seedLeaves s.freq).length := rfl
@[simp] theorem seedTable_nleaf (s : State) : (seedTable s).nleaf = BitVec.ofNat 9 (seedLeaves s.freq).length := rfl
@[simp] theorem seedTable_root (s : State) : (seedTable s).root = 0 := rfl
@[simp] theorem seedTable_total (s : State) : (seedTable s).total = (freqSum s.freq).setWidth 32 := rfl
@[simp] theorem seedTable_phase (s : State) : (seedTable s).phase = phaseAfterSeed (seedLeaves s.freq).length := rfl
@[simp] theorem seedTable_extActive (s : State) : (seedTable s).extActive = s.extActive := rfl
@[simp] theorem seedTable_extValid (s : State) : (seedTable s).extValid = s.extValid := rfl
@[simp] theorem seedTable_extEnd (s : State) : (seedTable s).extEnd = s.extEnd := rfl
@[simp] theorem seedTable_extIdx (s : State) : (seedTable s).extIdx = s.extIdx := rfl
@[simp] theorem seedTable_outSym (s : State) : (seedTable s).outSym = s.outSym := rfl
@[simp] theorem seedTable_outLen (s : State) : (seedTable s).outLen = s.outLen := rfl
@[simp] theorem seedTable_outCount (s : State) : (seedTable s).outCount = s.outCount := rfl
@[simp] theorem seedTable_outCode (s : State) : (seedTable s).outCode = s.outCode := rfl
@[simp] theorem seedTable_busy (s : State) : (seedTable s).busy = s.busy := rfl
@[simp] theorem seedTable_pending (s : State) : (seedTable s).pending = s.pending := rfl
@[simp] theorem seedTable_done (s : State) : (seedTable s).done = s.done := rfl
@[simp] theorem seedTable_err (s : State) : (seedTable s).err = s.err := rfl
@[simp] theorem seedTable_errcode (s : State) : (seedTable s).errcode = s.errcode := rfl
@[simp] theorem seedTable_errinfo (s : State) : (seedTable s).errinfo = s.errinfo := rfl
@[simp] theorem seedTable_ieDone (s : State) : (seedTable s).ieDone = s.ieDone := rfl
@[simp] theorem seedTable_ieErr (s : State) : (seedTable s).ieErr = s.ieErr := rfl
@[simp] theorem seedTable_nodeSel (s : State) : (seedTable s).nodeSel = s.nodeSel := rfl
@[simp] theorem seedTable_actSel (s : State) : (seedTable s).actSel = s.actSel := rfl
@[simp] theorem seedTable_rst (s : State) : (seedTable s).rst = s.rst := rfl
@[simp] theorem seedTable_inputs (s : State) : (seedTable s).inputs = s.inputs := rfl
@[simp] theorem seedTable_answer (s : State) : (seedTable s).answer = s.answer := rfl
@[simp] theorem seedTable_draws (s : State) : (seedTable s).draws = s.draws := rfl

/-! ### joinNodes -/

@[simp] theorem joinNodes_freq (a b : NodeIdx) (ca cb : Word) (act : List NodeIdx) (s : State) : (joinNodes a b ca cb act s).freq = s.freq := rfl
@[simp] theorem joinNodes_nodes (a b : NodeIdx) (ca cb : Word) (act : List NodeIdx) (s : State) : (joinNodes a b ca cb act s).nodes = s.nodes ++ [.internal (ca + cb) a b] := rfl
@[simp] theorem joinNodes_act (a b : NodeIdx) (ca cb : Word) (act : List NodeIdx) (s : State) : (joinNodes a b ca cb act s).act = act ++ [BitVec.ofNat 9 s.nodes.length] := rfl
@[simp] theorem joinNodes_nleaf (a b : NodeIdx) (ca cb : Word) (act : List NodeIdx) (s : State) : (joinNodes a b ca cb act s).nleaf = s.nleaf := rfl
@[simp] theorem joinNodes_root (a b : NodeIdx) (ca cb : Word) (act : List NodeIdx) (s : State) : (joinNodes a b ca cb act s).root = if (act ++ [(BitVec.ofNat 9 s.nodes.length : NodeIdx)]).length = 1 then BitVec.ofNat 9 s.nodes.length else s.root := rfl
@[simp] theorem joinNodes_total (a b : NodeIdx) (ca cb : Word) (act : List NodeIdx) (s : State) : (joinNodes a b ca cb act s).total = s.total := rfl
@[simp] theorem joinNodes_phase (a b : NodeIdx) (ca cb : Word) (act : List NodeIdx) (s : State) : (joinNodes a b ca cb act s).phase = if (act ++ [(BitVec.ofNat 9 s.nodes.length : NodeIdx)]).length = 1 then .tree else s.phase := rfl
@[simp] theorem joinNodes_extActive (a b : NodeIdx) (ca cb : Word) (act : List NodeIdx) (s : State) : (joinNodes a b ca cb act s).extActive = s.extActive := rfl
@[simp] theorem joinNodes_extValid (a b : NodeIdx) (ca cb : Word) (act : List NodeIdx) (s : State) : (joinNodes a b ca cb act s).extValid = s.extValid := rfl
@[simp] theorem joinNodes_extEnd (a b : NodeIdx) (ca cb : Word) (act : List NodeIdx) (s : State) : (joinNodes a b ca cb act s).extEnd = s.extEnd := rfl
@[simp] theorem joinNodes_extIdx (a b : NodeIdx) (ca cb : Word) (act : List NodeIdx) (s : State) : (joinNodes a b ca cb act s).extIdx = s.extIdx := rfl
@[simp] theorem joinNodes_outSym (a b : NodeIdx) (ca cb : Word) (act : List NodeIdx) (s : State) : (joinNodes a b ca cb act s).outSym = s.outSym := rfl
@[simp] theorem joinNodes_outLen (a b : NodeIdx) (ca cb : Word) (act : List NodeIdx) (s : State) : (joinNodes a b ca cb act s).outLen = s.outLen := rfl
@[simp] theorem joinNodes_outCount (a b : NodeIdx) (ca cb : Word) (act : List NodeIdx) (s : State) : (joinNodes a b ca cb act s).outCount = s.outCount := rfl
@[simp] theorem joinNodes_outCode (a b : NodeIdx) (ca cb : Word) (act : List NodeIdx) (s : State) : (joinNodes a b ca cb act s).outCode = s.outCode := rfl
@[simp] theorem joinNodes_busy (a b : NodeIdx) (ca cb : Word) (act : List NodeIdx) (s : State) : (joinNodes a b ca cb act s).busy = s.busy := rfl
@[simp] theorem joinNodes_pending (a b : NodeIdx) (ca cb : Word) (act : List NodeIdx) (s : State) : (joinNodes a b ca cb act s).pending = s.pending := rfl
@[simp] theorem joinNodes_done (a b : NodeIdx) (ca cb : Word) (act : List NodeIdx) (s : State) : (joinNodes a b ca cb act s).done = s.done := rfl
@[simp] theorem joinNodes_err (a b : NodeIdx) (ca cb : Word) (act : List NodeIdx) (s : State) : (joinNodes a b ca cb act s).err = s.err := rfl
@[simp] theorem joinNodes_errcode (a b : NodeIdx) (ca cb : Word) (act : List NodeIdx) (s : State) : (joinNodes a b ca cb act s).errcode = s.errcode := rfl
@[simp] theorem joinNodes_errinfo (a b : NodeIdx) (ca cb : Word) (act : List NodeIdx) (s : State) : (joinNodes a b ca cb act s).errinfo = s.errinfo := rfl
@[simp] theorem joinNodes_ieDone (a b : NodeIdx) (ca cb : Word) (act : List NodeIdx) (s : State) : (joinNodes a b ca cb act s).ieDone = s.ieDone := rfl
@[simp] theorem joinNodes_ieErr (a b : NodeIdx) (ca cb : Word) (act : List NodeIdx) (s : State) : (joinNodes a b ca cb act s).ieErr = s.ieErr := rfl
@[simp] theorem joinNodes_nodeSel (a b : NodeIdx) (ca cb : Word) (act : List NodeIdx) (s : State) : (joinNodes a b ca cb act s).nodeSel = s.nodeSel := rfl
@[simp] theorem joinNodes_actSel (a b : NodeIdx) (ca cb : Word) (act : List NodeIdx) (s : State) : (joinNodes a b ca cb act s).actSel = s.actSel := rfl
@[simp] theorem joinNodes_rst (a b : NodeIdx) (ca cb : Word) (act : List NodeIdx) (s : State) : (joinNodes a b ca cb act s).rst = s.rst := rfl
@[simp] theorem joinNodes_inputs (a b : NodeIdx) (ca cb : Word) (act : List NodeIdx) (s : State) : (joinNodes a b ca cb act s).inputs = s.inputs := rfl
@[simp] theorem joinNodes_answer (a b : NodeIdx) (ca cb : Word) (act : List NodeIdx) (s : State) : (joinNodes a b ca cb act s).answer = s.answer := rfl
@[simp] theorem joinNodes_draws (a b : NodeIdx) (ca cb : Word) (act : List NodeIdx) (s : State) : (joinNodes a b ca cb act s).draws = s.draws := rfl

/-! ### extBegin -/

@[simp] theorem extBegin_freq (s : State) : (extBegin s).freq = s.freq := rfl
@[simp] theorem extBegin_nodes (s : State) : (extBegin s).nodes = s.nodes := rfl
@[simp] theorem extBegin_act (s : State) : (extBegin s).act = s.act := rfl
@[simp] theorem extBegin_nleaf (s : State) : (extBegin s).nleaf = s.nleaf := rfl
@[simp] theorem extBegin_root (s : State) : (extBegin s).root = s.root := rfl
@[simp] theorem extBegin_total (s : State) : (extBegin s).total = s.total := rfl
@[simp] theorem extBegin_phase (s : State) : (extBegin s).phase = s.phase := rfl
@[simp] theorem extBegin_extActive (s : State) : (extBegin s).extActive = true := rfl
@[simp] theorem extBegin_extValid (s : State) : (extBegin s).extValid = false := rfl
@[simp] theorem extBegin_extEnd (s : State) : (extBegin s).extEnd = false := rfl
@[simp] theorem extBegin_extIdx (s : State) : (extBegin s).extIdx = 0 := rfl
@[simp] theorem extBegin_outSym (s : State) : (extBegin s).outSym = 0 := rfl
@[simp] theorem extBegin_outLen (s : State) : (extBegin s).outLen = 0 := rfl
@[simp] theorem extBegin_outCount (s : State) : (extBegin s).outCount = 0 := rfl
@[simp] theorem extBegin_outCode (s : State) : (extBegin s).outCode = 0 := rfl
@[simp] theorem extBegin_busy (s : State) : (extBegin s).busy = s.busy := rfl
@[simp] theorem extBegin_pending (s : State) : (extBegin s).pending = s.pending := rfl
@[simp] theorem extBegin_done (s : State) : (extBegin s).done = s.done := rfl
@[simp] theorem extBegin_err (s : State) : (extBegin s).err = s.err := rfl
@[simp] theorem extBegin_errcode (s : State) : (extBegin s).errcode = s.errcode := rfl
@[simp] theorem extBegin_errinfo (s : State) : (extBegin s).errinfo = s.errinfo := rfl
@[simp] theorem extBegin_ieDone (s : State) : (extBegin s).ieDone = s.ieDone := rfl
@[simp] theorem extBegin_ieErr (s : State) : (extBegin s).ieErr = s.ieErr := rfl
@[simp] theorem extBegin_nodeSel (s : State) : (extBegin s).nodeSel = s.nodeSel := rfl
@[simp] theorem extBegin_actSel (s : State) : (extBegin s).actSel = s.actSel := rfl
@[simp] theorem extBegin_rst (s : State) : (extBegin s).rst = s.rst := rfl
@[simp] theorem extBegin_inputs (s : State) : (extBegin s).inputs = s.inputs := rfl
@[simp] theorem extBegin_answer (s : State) : (extBegin s).answer = s.answer := rfl
@[simp] theorem extBegin_draws (s : State) : (extBegin s).draws = s.draws := rfl

/-! ### latchTriple -/

@[simp] theorem latchTriple_freq (t : Triple) (s : State) : (latchTriple t s).freq = s.freq := rfl
@[simp] theorem latchTriple_nodes (t : Triple) (s : State) : (latchTriple t s).nodes = s.nodes := rfl
@[simp] theorem latchTriple_act (t : Triple) (s : State) : (latchTriple t s).act = s.act := rfl
@[simp] theorem latchTriple_nleaf (t : Triple) (s : State) : (latchTriple t s).nleaf = s.nleaf := rfl
@[simp] theorem latchTriple_root (t : Triple) (s : State) : (latchTriple t s).root = s.root := rfl
@[simp] theorem latchTriple_total (t : Triple) (s : State) : (latchTriple t s).total = s.total := rfl
@[simp] theorem latchTriple_phase (t : Triple) (s : State) : (latchTriple t s).phase = s.phase := rfl
@[simp] theorem latchTriple_extActive (t : Triple) (s : State) : (latchTriple t s).extActive = s.extActive := rfl
@[simp] theorem latchTriple_extValid (t : Triple) (s : State) : (latchTriple t s).extValid = true := rfl
@[simp] theorem latchTriple_extEnd (t : Triple) (s : State) : (latchTriple t s).extEnd = false := rfl
@[simp] theorem latchTriple_extIdx (t : Triple) (s : State) : (latchTriple t s).extIdx = s.extIdx + 1 := rfl
@[simp] theorem latchTriple_outSym (t : Triple) (s : State) : (latchTriple t s).outSym = t.sym := rfl
@[simp] theorem latchTriple_outLen (t : Triple) (s : State) : (latchTriple t s).outLen = BitVec.ofNat 8 t.code.length := rfl
@[simp] theorem latchTriple_outCount (t : Triple) (s : State) : (latchTriple t s).outCount = t.count := rfl
@[simp] theorem latchTriple_outCode (t : Triple) (s : State) : (latchTriple t s).outCode = codeReg t.code := rfl
@[simp] theorem latchTriple_busy (t : Triple) (s : State) : (latchTriple t s).busy = s.busy := rfl
@[simp] theorem latchTriple_pending (t : Triple) (s : State) : (latchTriple t s).pending = s.pending := rfl
@[simp] theorem latchTriple_done (t : Triple) (s : State) : (latchTriple t s).done = s.done := rfl
@[simp] theorem latchTriple_err (t : Triple) (s : State) : (latchTriple t s).err = s.err := rfl
@[simp] theorem latchTriple_errcode (t : Triple) (s : State) : (latchTriple t s).errcode = s.errcode := rfl
@[simp] theorem latchTriple_errinfo (t : Triple) (s : State) : (latchTriple t s).errinfo = s.errinfo := rfl
@[simp] theorem latchTriple_ieDone (t : Triple) (s : State) : (latchTriple t s).ieDone = s.ieDone := rfl
@[simp] theorem latchTriple_ieErr (t : Triple) (s : State) : (latchTriple t s).ieErr = s.ieErr := rfl
@[simp] theorem latchTriple_nodeSel (t : Triple) (s : State) : (latchTriple t s).nodeSel = s.nodeSel := rfl
@[simp] theorem latchTriple_actSel (t : Triple) (s : State) : (latchTriple t s).actSel = s.actSel := rfl
@[simp] theorem latchTriple_rst (t : Triple) (s : State) : (latchTriple t s).rst = s.rst := rfl
@[simp] theorem latchTriple_inputs (t : Triple) (s : State) : (latchTriple t s).inputs = s.inputs := rfl
@[simp] theorem latchTriple_answer (t : Triple) (s : State) : (latchTriple t s).answer = s.answer := rfl
@[simp] theorem latchTriple_draws (t : Triple) (s : State) : (latchTriple t s).draws = s.draws := rfl

/-! ### reportEnd -/

@[simp] theorem reportEnd_freq (s : State) : (reportEnd s).freq = s.freq := rfl
@[simp] theorem reportEnd_nodes (s : State) : (reportEnd s).nodes = s.nodes := rfl
@[simp] theorem reportEnd_act (s : State) : (reportEnd s).act = s.act := rfl
@[simp] theorem reportEnd_nleaf (s : State) : (reportEnd s).nleaf = s.nleaf := rfl
@[simp] theorem reportEnd_root (s : State) : (reportEnd s).root = s.root := rfl
@[simp] theorem reportEnd_total (s : State) : (reportEnd s).total = s.total := rfl
@[simp] theorem reportEnd_phase (s : State) : (reportEnd s).phase = s.phase := rfl
@[simp] theorem reportEnd_extActive (s : State) : (reportEnd s).extActive = s.extActive := rfl
@[simp] theorem reportEnd_extValid (s : State) : (reportEnd s).extValid = false := rfl
@[simp] theorem reportEnd_extEnd (s : State) : (reportEnd s).extEnd = true := rfl
@[simp] theorem reportEnd_extIdx (s : State) : (reportEnd s).extIdx = s.extIdx := rfl
@[simp] theorem reportEnd_outSym (s : State) : (reportEnd s).outSym = 0 := rfl
@[simp] theorem reportEnd_outLen (s : State) : (reportEnd s).outLen = 0 := rfl
@[simp] theorem reportEnd_outCount (s : State) : (reportEnd s).outCount = 0 := rfl
@[simp] theorem reportEnd_outCode (s : State) : (reportEnd s).outCode = 0 := rfl
@[simp] theorem reportEnd_busy (s : State) : (reportEnd s).busy = s.busy := rfl
@[simp] theorem reportEnd_pending (s : State) : (reportEnd s).pending = s.pending := rfl
@[simp] theorem reportEnd_done (s : State) : (reportEnd s).done = s.done := rfl
@[simp] theorem reportEnd_err (s : State) : (reportEnd s).err = s.err := rfl
@[simp] theorem reportEnd_errcode (s : State) : (reportEnd s).errcode = s.errcode := rfl
@[simp] theorem reportEnd_errinfo (s : State) : (reportEnd s).errinfo = s.errinfo := rfl
@[simp] theorem reportEnd_ieDone (s : State) : (reportEnd s).ieDone = s.ieDone := rfl
@[simp] theorem reportEnd_ieErr (s : State) : (reportEnd s).ieErr = s.ieErr := rfl
@[simp] theorem reportEnd_nodeSel (s : State) : (reportEnd s).nodeSel = s.nodeSel := rfl
@[simp] theorem reportEnd_actSel (s : State) : (reportEnd s).actSel = s.actSel := rfl
@[simp] theorem reportEnd_rst (s : State) : (reportEnd s).rst = s.rst := rfl
@[simp] theorem reportEnd_inputs (s : State) : (reportEnd s).inputs = s.inputs := rfl
@[simp] theorem reportEnd_answer (s : State) : (reportEnd s).answer = s.answer := rfl
@[simp] theorem reportEnd_draws (s : State) : (reportEnd s).draws = s.draws := rfl

/-! ### holdReset -/

@[simp] theorem holdReset_freq (s : State) : (holdReset s).freq = State.reset.freq := rfl
@[simp] theorem holdReset_nodes (s : State) : (holdReset s).nodes = State.reset.nodes := rfl
@[simp] theorem holdReset_act (s : State) : (holdReset s).act = State.reset.act := rfl
@[simp] theorem holdReset_nleaf (s : State) : (holdReset s).nleaf = State.reset.nleaf := rfl
@[simp] theorem holdReset_root (s : State) : (holdReset s).root = State.reset.root := rfl
@[simp] theorem holdReset_total (s : State) : (holdReset s).total = State.reset.total := rfl
@[simp] theorem holdReset_phase (s : State) : (holdReset s).phase = State.reset.phase := rfl
@[simp] theorem holdReset_extActive (s : State) : (holdReset s).extActive = State.reset.extActive := rfl
@[simp] theorem holdReset_extValid (s : State) : (holdReset s).extValid = State.reset.extValid := rfl
@[simp] theorem holdReset_extEnd (s : State) : (holdReset s).extEnd = State.reset.extEnd := rfl
@[simp] theorem holdReset_extIdx (s : State) : (holdReset s).extIdx = State.reset.extIdx := rfl
@[simp] theorem holdReset_outSym (s : State) : (holdReset s).outSym = State.reset.outSym := rfl
@[simp] theorem holdReset_outLen (s : State) : (holdReset s).outLen = State.reset.outLen := rfl
@[simp] theorem holdReset_outCount (s : State) : (holdReset s).outCount = State.reset.outCount := rfl
@[simp] theorem holdReset_outCode (s : State) : (holdReset s).outCode = State.reset.outCode := rfl
@[simp] theorem holdReset_busy (s : State) : (holdReset s).busy = State.reset.busy := rfl
@[simp] theorem holdReset_pending (s : State) : (holdReset s).pending = State.reset.pending := rfl
@[simp] theorem holdReset_done (s : State) : (holdReset s).done = State.reset.done := rfl
@[simp] theorem holdReset_err (s : State) : (holdReset s).err = State.reset.err := rfl
@[simp] theorem holdReset_errcode (s : State) : (holdReset s).errcode = State.reset.errcode := rfl
@[simp] theorem holdReset_errinfo (s : State) : (holdReset s).errinfo = State.reset.errinfo := rfl
@[simp] theorem holdReset_ieDone (s : State) : (holdReset s).ieDone = State.reset.ieDone := rfl
@[simp] theorem holdReset_ieErr (s : State) : (holdReset s).ieErr = State.reset.ieErr := rfl
@[simp] theorem holdReset_nodeSel (s : State) : (holdReset s).nodeSel = State.reset.nodeSel := rfl
@[simp] theorem holdReset_actSel (s : State) : (holdReset s).actSel = State.reset.actSel := rfl
@[simp] theorem holdReset_rst (s : State) : (holdReset s).rst = true := rfl
@[simp] theorem holdReset_inputs (s : State) : (holdReset s).inputs = s.inputs := rfl
@[simp] theorem holdReset_answer (s : State) : (holdReset s).answer = s.answer := rfl
@[simp] theorem holdReset_draws (s : State) : (holdReset s).draws = s.draws := rfl

/-! ### raiseError -/

@[simp] theorem raiseError_freq (code : ErrCode) (info : Word) (s : State) : (raiseError code info s).freq = s.freq := by
  unfold raiseError; split <;> rfl
@[simp] theorem raiseError_nodes (code : ErrCode) (info : Word) (s : State) : (raiseError code info s).nodes = s.nodes := by
  unfold raiseError; split <;> rfl
@[simp] theorem raiseError_act (code : ErrCode) (info : Word) (s : State) : (raiseError code info s).act = s.act := by
  unfold raiseError; split <;> rfl
@[simp] theorem raiseError_nleaf (code : ErrCode) (info : Word) (s : State) : (raiseError code info s).nleaf = s.nleaf := by
  unfold raiseError; split <;> rfl
@[simp] theorem raiseError_root (code : ErrCode) (info : Word) (s : State) : (raiseError code info s).root = s.root := by
  unfold raiseError; split <;> rfl
@[simp] theorem raiseError_total (code : ErrCode) (info : Word) (s : State) : (raiseError code info s).total = s.total := by
  unfold raiseError; split <;> rfl
@[simp] theorem raiseError_phase (code : ErrCode) (info : Word) (s : State) : (raiseError code info s).phase = s.phase := by
  unfold raiseError; split <;> rfl
@[simp] theorem raiseError_extActive (code : ErrCode) (info : Word) (s : State) : (raiseError code info s).extActive = s.extActive := by
  unfold raiseError; split <;> rfl
@[simp] theorem raiseError_extValid (code : ErrCode) (info : Word) (s : State) : (raiseError code info s).extValid = s.extValid := by
  unfold raiseError; split <;> rfl
@[simp] theorem raiseError_extEnd (code : ErrCode) (info : Word) (s : State) : (raiseError code info s).extEnd = s.extEnd := by
  unfold raiseError; split <;> rfl
@[simp] theorem raiseError_extIdx (code : ErrCode) (info : Word) (s : State) : (raiseError code info s).extIdx = s.extIdx := by
  unfold raiseError; split <;> rfl
@[simp] theorem raiseError_outSym (code : ErrCode) (info : Word) (s : State) : (raiseError code info s).outSym = s.outSym := by
  unfold raiseError; split <;> rfl
@[simp] theorem raiseError_outLen (code : ErrCode) (info : Word) (s : State) : (raiseError code info s).outLen = s.outLen := by
  unfold raiseError; split <;> rfl
@[simp] theorem raiseError_outCount (code : ErrCode) (info : Word) (s : State) : (raiseError code info s).outCount = s.outCount := by
  unfold raiseError; split <;> rfl
@[simp] theorem raiseError_outCode (code : ErrCode) (info : Word) (s : State) : (raiseError code info s).outCode = s.outCode := by
  unfold raiseError; split <;> rfl
@[simp] theorem raiseError_busy (code : ErrCode) (info : Word) (s : State) : (raiseError code info s).busy = s.busy := by
  unfold raiseError; split <;> rfl
@[simp] theorem raiseError_pending (code : ErrCode) (info : Word) (s : State) : (raiseError code info s).pending = s.pending := by
  unfold raiseError; split <;> rfl
@[simp] theorem raiseError_done (code : ErrCode) (info : Word) (s : State) : (raiseError code info s).done = s.done := by
  unfold raiseError; split <;> rfl
@[simp] theorem raiseError_err (code : ErrCode) (info : Word) (s : State) : (raiseError code info s).err = true := by
  unfold raiseError; split <;> simp_all
@[simp] theorem raiseError_errcode (code : ErrCode) (info : Word) (s : State) : (raiseError code info s).errcode = if s.err then s.errcode else code := by
  unfold raiseError; split <;> simp_all
@[simp] theorem raiseError_errinfo (code : ErrCode) (info : Word) (s : State) : (raiseError code info s).errinfo = if s.err then s.errinfo else info := by
  unfold raiseError; split <;> simp_all
@[simp] theorem raiseError_ieDone (code : ErrCode) (info : Word) (s : State) : (raiseError code info s).ieDone = s.ieDone := by
  unfold raiseError; split <;> rfl
@[simp] theorem raiseError_ieErr (code : ErrCode) (info : Word) (s : State) : (raiseError code info s).ieErr = s.ieErr := by
  unfold raiseError; split <;> rfl
@[simp] theorem raiseError_nodeSel (code : ErrCode) (info : Word) (s : State) : (raiseError code info s).nodeSel = s.nodeSel := by
  unfold raiseError; split <;> rfl
@[simp] theorem raiseError_actSel (code : ErrCode) (info : Word) (s : State) : (raiseError code info s).actSel = s.actSel := by
  unfold raiseError; split <;> rfl
@[simp] theorem raiseError_rst (code : ErrCode) (info : Word) (s : State) : (raiseError code info s).rst = s.rst := by
  unfold raiseError; split <;> rfl
@[simp] theorem raiseError_inputs (code : ErrCode) (info : Word) (s : State) : (raiseError code info s).inputs = s.inputs := by
  unfold raiseError; split <;> rfl
@[simp] theorem raiseError_answer (code : ErrCode) (info : Word) (s : State) : (raiseError code info s).answer = s.answer := by
  unfold raiseError; split <;> rfl
@[simp] theorem raiseError_draws (code : ErrCode) (info : Word) (s : State) : (raiseError code info s).draws = s.draws := by
  unfold raiseError; split <;> rfl

/-! ### writeStatus -/

@[simp] theorem writeStatus_freq (w : Word) (s : State) : (writeStatus w s).freq = s.freq := by
  unfold writeStatus; cases w.getLsbD 1 <;> cases w.getLsbD 2 <;> simp
@[simp] theorem writeStatus_nodes (w : Word) (s : State) : (writeStatus w s).nodes = s.nodes := by
  unfold writeStatus; cases w.getLsbD 1 <;> cases w.getLsbD 2 <;> simp
@[simp] theorem writeStatus_act (w : Word) (s : State) : (writeStatus w s).act = s.act := by
  unfold writeStatus; cases w.getLsbD 1 <;> cases w.getLsbD 2 <;> simp
@[simp] theorem writeStatus_nleaf (w : Word) (s : State) : (writeStatus w s).nleaf = s.nleaf := by
  unfold writeStatus; cases w.getLsbD 1 <;> cases w.getLsbD 2 <;> simp
@[simp] theorem writeStatus_root (w : Word) (s : State) : (writeStatus w s).root = s.root := by
  unfold writeStatus; cases w.getLsbD 1 <;> cases w.getLsbD 2 <;> simp
@[simp] theorem writeStatus_total (w : Word) (s : State) : (writeStatus w s).total = s.total := by
  unfold writeStatus; cases w.getLsbD 1 <;> cases w.getLsbD 2 <;> simp
@[simp] theorem writeStatus_phase (w : Word) (s : State) : (writeStatus w s).phase = s.phase := by
  unfold writeStatus; cases w.getLsbD 1 <;> cases w.getLsbD 2 <;> simp
@[simp] theorem writeStatus_extActive (w : Word) (s : State) : (writeStatus w s).extActive = s.extActive := by
  unfold writeStatus; cases w.getLsbD 1 <;> cases w.getLsbD 2 <;> simp
@[simp] theorem writeStatus_extValid (w : Word) (s : State) : (writeStatus w s).extValid = s.extValid := by
  unfold writeStatus; cases w.getLsbD 1 <;> cases w.getLsbD 2 <;> simp
@[simp] theorem writeStatus_extEnd (w : Word) (s : State) : (writeStatus w s).extEnd = s.extEnd := by
  unfold writeStatus; cases w.getLsbD 1 <;> cases w.getLsbD 2 <;> simp
@[simp] theorem writeStatus_extIdx (w : Word) (s : State) : (writeStatus w s).extIdx = s.extIdx := by
  unfold writeStatus; cases w.getLsbD 1 <;> cases w.getLsbD 2 <;> simp
@[simp] theorem writeStatus_outSym (w : Word) (s : State) : (writeStatus w s).outSym = s.outSym := by
  unfold writeStatus; cases w.getLsbD 1 <;> cases w.getLsbD 2 <;> simp
@[simp] theorem writeStatus_outLen (w : Word) (s : State) : (writeStatus w s).outLen = s.outLen := by
  unfold writeStatus; cases w.getLsbD 1 <;> cases w.getLsbD 2 <;> simp
@[simp] theorem writeStatus_outCount (w : Word) (s : State) : (writeStatus w s).outCount = s.outCount := by
  unfold writeStatus; cases w.getLsbD 1 <;> cases w.getLsbD 2 <;> simp
@[simp] theorem writeStatus_outCode (w : Word) (s : State) : (writeStatus w s).outCode = s.outCode := by
  unfold writeStatus; cases w.getLsbD 1 <;> cases w.getLsbD 2 <;> simp
@[simp] theorem writeStatus_busy (w : Word) (s : State) : (writeStatus w s).busy = s.busy := by
  unfold writeStatus; cases w.getLsbD 1 <;> cases w.getLsbD 2 <;> simp
@[simp] theorem writeStatus_pending (w : Word) (s : State) : (writeStatus w s).pending = s.pending := by
  unfold writeStatus; cases w.getLsbD 1 <;> cases w.getLsbD 2 <;> simp
@[simp] theorem writeStatus_done (w : Word) (s : State) : (writeStatus w s).done = (s.done && !w.getLsbD 1) := by
  unfold writeStatus; cases w.getLsbD 1 <;> cases w.getLsbD 2 <;> simp
@[simp] theorem writeStatus_err (w : Word) (s : State) : (writeStatus w s).err = (s.err && !w.getLsbD 2) := by
  unfold writeStatus; cases w.getLsbD 1 <;> cases w.getLsbD 2 <;> simp
@[simp] theorem writeStatus_errcode (w : Word) (s : State) : (writeStatus w s).errcode = if w.getLsbD 2 then .none else s.errcode := by
  unfold writeStatus; cases w.getLsbD 1 <;> cases w.getLsbD 2 <;> simp
@[simp] theorem writeStatus_errinfo (w : Word) (s : State) : (writeStatus w s).errinfo = if w.getLsbD 2 then 0 else s.errinfo := by
  unfold writeStatus; cases w.getLsbD 1 <;> cases w.getLsbD 2 <;> simp
@[simp] theorem writeStatus_ieDone (w : Word) (s : State) : (writeStatus w s).ieDone = s.ieDone := by
  unfold writeStatus; cases w.getLsbD 1 <;> cases w.getLsbD 2 <;> simp
@[simp] theorem writeStatus_ieErr (w : Word) (s : State) : (writeStatus w s).ieErr = s.ieErr := by
  unfold writeStatus; cases w.getLsbD 1 <;> cases w.getLsbD 2 <;> simp
@[simp] theorem writeStatus_nodeSel (w : Word) (s : State) : (writeStatus w s).nodeSel = s.nodeSel := by
  unfold writeStatus; cases w.getLsbD 1 <;> cases w.getLsbD 2 <;> simp
@[simp] theorem writeStatus_actSel (w : Word) (s : State) : (writeStatus w s).actSel = s.actSel := by
  unfold writeStatus; cases w.getLsbD 1 <;> cases w.getLsbD 2 <;> simp
@[simp] theorem writeStatus_rst (w : Word) (s : State) : (writeStatus w s).rst = s.rst := by
  unfold writeStatus; cases w.getLsbD 1 <;> cases w.getLsbD 2 <;> simp
@[simp] theorem writeStatus_inputs (w : Word) (s : State) : (writeStatus w s).inputs = s.inputs := by
  unfold writeStatus; cases w.getLsbD 1 <;> cases w.getLsbD 2 <;> simp
@[simp] theorem writeStatus_answer (w : Word) (s : State) : (writeStatus w s).answer = s.answer := by
  unfold writeStatus; cases w.getLsbD 1 <;> cases w.getLsbD 2 <;> simp
@[simp] theorem writeStatus_draws (w : Word) (s : State) : (writeStatus w s).draws = s.draws := by
  unfold writeStatus; cases w.getLsbD 1 <;> cases w.getLsbD 2 <;> simp

end Sys2Proof.Machine
end

