-- ==== Sys2Proof/Laws/Builder.lean ====
section
/-! SUPPORT. What seeding, a merge and the merge loop can do (40_tree_builder.md). -/

namespace Sys2Proof.Machine

open Sys2Proof

/-- All `SeedBody` can do. -/
theorem seedBody_cases (w : Word) (s : State) :
    (Config.maxTotal < freqSum s.freq ∧ seedBody w s = raiseError .overflow w (seedClear s)) ∨
    (¬ Config.maxTotal < freqSum s.freq ∧ seedBody w s = seedTable (seedClear s)) := by
  unfold seedBody
  split
  · next h => exact .inl ⟨h, rfl⟩
  · next h => exact .inr ⟨h, rfl⟩

/-- Seeding never changes FREQ. -/
@[simp] theorem seedBody_freq (w : Word) (s : State) : (seedBody w s).freq = s.freq := by
  rcases seedBody_cases w s with ⟨-, h⟩ | ⟨-, h⟩ <;> simp [h]

/-- Seeding leaves the extractor inactive. -/
@[simp] theorem seedBody_extActive (w : Word) (s : State) : (seedBody w s).extActive = false := by
  rcases seedBody_cases w s with ⟨-, h⟩ | ⟨-, h⟩ <;> simp [h]

/-- A table seeds no more leaves than it has entries. -/
theorem leavesFrom_length_le (k : Nat) (cs : List Word) : (leavesFrom k cs).length ≤ cs.length := by
  induction cs generalizing k with
  | nil => simp [leavesFrom]
  | cons c cs ih =>
    simp only [leavesFrom]
    split
    · have := ih (k + 1); simp; omega
    · simpa using ih (k + 1)

/-- At most 256 leaves are seeded. -/
theorem seedLeaves_length_le (freq : Vector Word 256) : (seedLeaves freq).length ≤ 256 := by
  simpa [seedLeaves] using leavesFrom_length_le 0 freq.toList

/-- The seeded Active Set has one member for each leaf. -/
@[simp] theorem seedAct_length (n : Nat) : (seedAct n).length = n := by simp [seedAct]

/-- All a merge can do. -/
theorem mergeOnce_cases {s t : State} (h : mergeOnce s = some t) :
    s.nodes.length < Config.maxNode ∧ ∃ a act1 b act2 na nb,
      selectRemove s.nodes s.act = some (a, act1) ∧ selectRemove s.nodes act1 = some (b, act2) ∧
      nodeAt s.nodes a = some na ∧ nodeAt s.nodes b = some nb ∧
      t = joinNodes a b na.count nb.count act2 s := by
  unfold mergeOnce at h
  split at h
  · cases h
  · next hn =>
    split at h
    · cases h
    · next a act1 h1 =>
      split at h
      · cases h
      · next b act2 h2 =>
        split at h
        · next na nb ha hb => cases h; exact ⟨by omega, a, act1, b, act2, na, nb, h1, h2, ha, hb, rfl⟩
        · cases h

/-- A merge shortens the Active Set by one (it removes two and appends one). -/
theorem mergeOnce_act_length {s t : State} (h : mergeOnce s = some t) :
    t.act.length + 1 = s.act.length ∧ 2 ≤ s.act.length := by
  obtain ⟨-, a, act1, b, act2, na, nb, h1, h2, -, -, rfl⟩ := mergeOnce_cases h
  have l1 := selectRemove_length h1
  have l2 := selectRemove_length h2
  simp; omega

/-- A merge leaves FREQ, `nleaf`, `total`, the extractor, the error record and the control state alone. -/
theorem mergeOnce_frame {s t : State} (h : mergeOnce s = some t) :
    t = { s with nodes := t.nodes, act := t.act, phase := t.phase, root := t.root } := by
  obtain ⟨-, a, act1, b, act2, na, nb, -, -, -, -, rfl⟩ := mergeOnce_cases h
  rfl

/-- The loop leaves alone what every merge leaves alone. -/
theorem mergeLoop_frame {fuel : Nat} {s t : State} (h : mergeLoop fuel s = some t) :
    t = { s with nodes := t.nodes, act := t.act, phase := t.phase, root := t.root } := by
  induction fuel generalizing s with
  | zero =>
    simp only [mergeLoop] at h
    split at h
    · cases h
    · cases h; rfl
  | succ n ih =>
    simp only [mergeLoop] at h
    split at h
    · split at h
      · cases h
      · next u hu =>
        have hu' := mergeOnce_frame hu
        have ht := ih h
        rw [ht, hu']
    · cases h; rfl

/-- The loop ends outside phase SEEDED. -/
theorem mergeLoop_phase {fuel : Nat} {s t : State} (h : mergeLoop fuel s = some t) : t.phase ≠ .seeded := by
  induction fuel generalizing s with
  | zero =>
    simp only [mergeLoop] at h
    split at h
    · cases h
    · next hp => cases h; exact hp
  | succ n ih =>
    simp only [mergeLoop] at h
    split at h
    · split at h
      · cases h
      · exact ih h
    · next hp => cases h; exact hp

end Sys2Proof.Machine
end

