-- ==== Sys2Proof/Laws/Bus.lean ====
section
/-! SUPPORT. What a bus transaction can do to the block (20_memory.md rules R61 to R68). -/

namespace Sys2Proof.Machine

open Sys2Proof

/-- All a write dispatch can do. -/
theorem writeReg_cases (a : Addr) (w : Word) (s : State) :
    writeReg a w s = s ∨
    writeReg a w s = { s with ieDone := w.getLsbD 0, ieErr := w.getLsbD 1 } ∨
    writeReg a w s = writeStatus w s ∨
    (s.busy = true ∧ writeReg a w s = raiseError .busy (a.setWidth 32) s) ∨
    (s.busy = false ∧
      (writeReg a w s = issue w s ∨ writeReg a w s = { s with nodeSel := w.extractLsb' 0 9 } ∨
       writeReg a w s = { s with actSel := w.extractLsb' 0 9 } ∨ ∃ sym, writeReg a w s = writeFreq sym w s)) := by
  unfold writeReg
  cases regAt a with
  | freq sym =>
    cases h : s.busy
    · exact .inr (.inr (.inr (.inr ⟨rfl, .inr (.inr (.inr ⟨sym, by simp⟩))⟩)))
    · simp
  | _ => cases h : s.busy <;> simp

/-- All a transaction can do: a read or a refused write leaves the block alone, an accepted one dispatches. -/
theorem busStep_cases (op : BusOp) (s : State) :
    (∃ ans d, busStep op s = { s with answer := ans, draws := d }) ∨
    (∃ a w, op = .write a 0xF w ∧ aligned a = true ∧
      busStep op s = { writeReg a w s with answer := some (.write .ok) }) := by
  cases op with
  | read a be =>
    left
    simp only [busStep, busRead]
    split
    · exact ⟨_, _, rfl⟩
    · exact ⟨_, s.draws, rfl⟩
  | write a be w =>
    simp only [busStep, busWrite]
    split
    · next h =>
      obtain ⟨h1, h2⟩ : aligned a = true ∧ be = 0xF := by simpa using h
      exact .inr ⟨a, w, by rw [h2], h1, rfl⟩
    · exact .inl ⟨_, s.draws, rfl⟩

/-- While busy no transaction reaches the results, the pending word, the selections, the reset line or the turns to come. -/
theorem busStep_busy (op : BusOp) {s : State} (h : s.busy = true) :
    busStep op s = { s with
      done := (busStep op s).done, err := (busStep op s).err, errcode := (busStep op s).errcode,
      errinfo := (busStep op s).errinfo, ieDone := (busStep op s).ieDone, ieErr := (busStep op s).ieErr,
      answer := (busStep op s).answer, draws := (busStep op s).draws } := by
  rcases busStep_cases op s with ⟨ans, d, e⟩ | ⟨a, w, -, -, e⟩
  · rw [e]
  · rw [e]
    rcases writeReg_cases a w s with e | e | e | ⟨-, e⟩ | ⟨hb, -⟩
    · rw [e]
    · rw [e]
    · rw [e]; unfold writeStatus; cases w.getLsbD 1 <;> cases w.getLsbD 2 <;> rfl
    · rw [e]; unfold raiseError; split <;> rfl
    · simp [h] at hb

end Sys2Proof.Machine
end

