-- ==== Sys2Proof/Laws/Extractor.lean ====
section
/-! SUPPORT. What the leaf sequence and the code register are (42_code_extractor.md). -/

namespace Sys2Proof.Machine

open Sys2Proof

/-- The sequence at a leaf. -/
theorem leavesAt_leaf {nodes : List Node} {n : NodeIdx} {sym : Sym} {c : Word} (h : nodeAt nodes n = some (.leaf sym c))
    (fuel : Nat) (path : List Bool) : leavesAt nodes (fuel + 1) n path = some [⟨sym, path, c⟩] := by
  simp [leavesAt, h]

/-- All the recursion can do at a node it ends on. -/
theorem leavesAt_cases {nodes : List Node} {fuel : Nat} {n : NodeIdx} {path : List Bool} {q : List Triple}
    (h : leavesAt nodes fuel n path = some q) :
    ∃ k, fuel = k + 1 ∧
      ((∃ sym c, nodeAt nodes n = some (.leaf sym c) ∧ q = [⟨sym, path, c⟩]) ∨
       (∃ c l r ql qr, nodeAt nodes n = some (.internal c l r) ∧
          leavesAt nodes k l (path ++ [false]) = some ql ∧ leavesAt nodes k r (path ++ [true]) = some qr ∧
          q = ql ++ qr)) := by
  cases fuel with
  | zero => simp [leavesAt] at h
  | succ k =>
    refine ⟨k, rfl, ?_⟩
    simp only [leavesAt] at h
    split at h
    · cases h
    · next sym c hn => cases h; exact .inl ⟨sym, c, hn, rfl⟩
    · next c l r hn =>
      split at h
      · next ql qr hl hr => cases h; exact .inr ⟨c, l, r, ql, qr, hn, hl, hr, rfl⟩
      · cases h

/-- More fuel does not change a sequence. -/
theorem leavesAt_fuel {nodes : List Node} {fuel : Nat} {n : NodeIdx} {path : List Bool} {q : List Triple}
    (h : leavesAt nodes fuel n path = some q) : leavesAt nodes (fuel + 1) n path = some q := by
  induction fuel generalizing n path q with
  | zero => simp [leavesAt] at h
  | succ k ih =>
    obtain ⟨j, hj, ⟨sym, c, hn, rfl⟩ | ⟨c, l, r, ql, qr, hn, hl, hr, rfl⟩⟩ := leavesAt_cases h
    · exact leavesAt_leaf hn (k + 1) path
    · cases hj
      rw [leavesAt, hn]
      simp [ih hl, ih hr]

/-- Where children lie below their parents, the recursion from an allocated node ends, with one unit of fuel a level. -/
theorem leavesAt_isSome {nodes : List Node}
    (hdesc : ∀ n c l r, nodeAt nodes n = some (.internal c l r) → l.toNat < n.toNat ∧ r.toNat < n.toNat)
    {fuel : Nat} {n : NodeIdx} (path : List Bool) (hf : n.toNat < fuel) (hn : n.toNat < nodes.length) :
    ∃ q, leavesAt nodes fuel n path = some q := by
  induction fuel generalizing n path with
  | zero => omega
  | succ k ih =>
    rw [leavesAt]
    have hk : nodeAt nodes n = some nodes[n.toNat] := nodeAt_eq_some_iff.mpr ⟨hn, rfl⟩
    cases hx : nodes[n.toNat] with
    | leaf sym c => simp [hk, hx]
    | internal c l r =>
      rw [hx] at hk
      obtain ⟨h1, h2⟩ := hdesc n c l r hk
      obtain ⟨ql, hl⟩ := ih (n := l) (path ++ [false]) (by omega) (by omega)
      obtain ⟨qr, hr⟩ := ih (n := r) (path ++ [true]) (by omega) (by omega)
      exact ⟨ql ++ qr, by simp [hk, hl, hr]⟩

/-- Every path of a node's sequence begins with the node's own path. -/
theorem leavesAt_path {nodes : List Node} {fuel : Nat} {n : NodeIdx} {path : List Bool} {q : List Triple}
    (h : leavesAt nodes fuel n path = some q) : ∀ t ∈ q, path <+: t.code := by
  induction fuel generalizing n path q with
  | zero => simp [leavesAt] at h
  | succ k ih =>
    obtain ⟨j, hj, ⟨sym, c, hn, rfl⟩ | ⟨c, l, r, ql, qr, hn, hl, hr, rfl⟩⟩ := leavesAt_cases h
    · simp
    · cases hj
      intro t ht
      rcases List.mem_append.mp ht with ht | ht
      · exact (List.prefix_append path [false]).trans (ih hl t ht)
      · exact (List.prefix_append path [true]).trans (ih hr t ht)

/-- Bit 0 of a nonempty path's register is the choice at the root, and the other bits are the rest's, one higher. -/
theorem codeReg_cons (b : Bool) (bs : List Bool) :
    codeReg (b :: bs) = (codeReg bs <<< 1) ||| (if b then 1 else 0) := rfl

/-- The register of a path, bit by bit. -/
theorem codeReg_getLsbD (bs : List Bool) (j : Nat) (hj : j < 256) : (codeReg bs).getLsbD j = bs.getD j false := by
  induction bs generalizing j with
  | nil => simp [codeReg]
  | cons b bs ih =>
    rw [codeReg_cons]
    cases j with
    | zero => cases b <;> simp
    | succ j =>
      have : (if b = true then (1 : CodeReg) else 0).getLsbD (j + 1) = false := by
        cases b <;> simp [BitVec.getLsbD_one]
      simp only [BitVec.getLsbD_or, BitVec.getLsbD_shiftLeft, this]
      have hih := ih j (by omega)
      simp [hj, hih]

/-- The sequence depends on the tree alone. -/
theorem seq_congr {s t : State} (hn : t.nodes = s.nodes) (hr : t.root = s.root) (hp : t.phase = s.phase) :
    t.seq = s.seq := by
  unfold State.seq; rw [hn, hr, hp]

end Sys2Proof.Machine
end

