-- ==== Sys2Proof/Laws/Engine.lean ====
section
/-! SUPPORT. What each command, each turn and each step can do, said once (30_encoding.md rules R84 and R85, 20_memory.md rule R70). -/

namespace Sys2Proof.Machine

open Sys2Proof

/-- All MERGE can do. -/
theorem execMerge_cases {s t : State} (h : execMerge s = .next t) :
    (s.phase = .none ∧ t = raiseError .sequence (encode .merge) s) ∨
    (s.phase = .seeded ∧ mergeOnce s = some t) ∨
    ((s.phase = .tree ∨ s.phase = .empty) ∧ t = s) := by
  unfold execMerge at h
  split at h
  · next hp => cases h; exact .inl ⟨hp, rfl⟩
  · next hp =>
    split at h
    · next u hu => cases h; exact .inr (.inl ⟨hp, hu⟩)
    · cases h
  · next hp => cases h; exact .inr (.inr ⟨.inl hp, rfl⟩)
  · next hp => cases h; exact .inr (.inr ⟨.inr hp, rfl⟩)

/-- All BUILD can do. -/
theorem execBuild_cases {s t : State} (h : execBuild s = .next t) :
    mergeLoop (seedBody (encode .build) s).act.length (seedBody (encode .build) s) = some t := by
  simp only [execBuild] at h
  split at h
  · next u hu => cases h; exact hu
  · cases h

/-- All EXT_START can do. -/
theorem execExtStart_cases {s t : State} (h : execExtStart s = .next t) :
    ((s.phase = .none ∨ s.phase = .seeded) ∧ t = raiseError .sequence (encode .extStart) s) ∨
    ((s.phase = .tree ∨ s.phase = .empty) ∧ t = extBegin s) := by
  unfold execExtStart at h
  split at h <;> next hp => cases h; simp [hp]

/-- All EXT_NEXT can do. -/
theorem execExtNext_cases {s t : State} (h : execExtNext s = .next t) :
    (s.extActive = false ∧ t = raiseError .sequence (encode .extNext) s) ∨
    (s.extActive = true ∧ ∃ q, s.seq = some q ∧
      ((∃ tr, q[s.extIdx.toNat]? = some tr ∧ t = latchTriple tr s) ∨
       (q.length ≤ s.extIdx.toNat ∧ t = reportEnd s))) := by
  unfold execExtNext at h
  split at h
  · next ha =>
    split at h
    · cases h
    · next q hq =>
      split at h
      · next tr htr => cases h; exact .inr ⟨ha, q, hq, .inl ⟨tr, htr, rfl⟩⟩
      · next hn => cases h; exact .inr ⟨ha, q, hq, .inr ⟨List.getElem?_eq_none_iff.mp hn, rfl⟩⟩
  · next ha => cases h; exact .inl ⟨by simpa using ha, rfl⟩

/-- All the engine's step can do. -/
theorem engineComplete_cases {s t : State} (h : engineComplete s = .next t) :
    ∃ u, t = complete u ∧
      ((∃ i, decode s.pending = .ok i ∧ exec i s = .next u) ∨
       (∃ r, decode s.pending = .error r ∧ u = raiseError .illegalCmd s.pending s)) := by
  unfold engineComplete at h
  split at h
  · next u hu =>
    cases h
    refine ⟨u, rfl, ?_⟩
    unfold execute at hu
    split at hu
    · next i hi => exact .inl ⟨i, hi, hu⟩
    · next r hr => cases hu; exact .inr ⟨r, hr, rfl⟩
  · cases h
  · cases h

/-- All the engine's turn can do. -/
theorem engineTurn_cases {s t : State} (h : engineTurn s = .next t) :
    (s.rst = true ∧ t = holdReset s) ∨
    (s.rst = false ∧ s.busy = true ∧ engineComplete s = .next t) ∨
    (s.rst = false ∧ s.busy = false ∧ t = s) := by
  unfold engineTurn at h
  split at h
  · next hr => cases h; exact .inl ⟨hr, rfl⟩
  · next hr =>
    split at h
    · next hb => exact .inr (.inl ⟨by simpa using hr, hb, h⟩)
    · next hb => cases h; exact .inr (.inr ⟨by simpa using hr, by simpa using hb, rfl⟩)

/-- All a step can do: the engine's turn, the host's, or the reset line's. -/
theorem step_cases {s t : State} (h : step s = .next t) :
    ∃ s0, (s.inputs = [] ∧ s0 = s ∨ ∃ i rest, s.inputs = i :: rest ∧ s0 = { s with inputs := rest }) ∧
      (((s.inputs = [] ∨ ∃ rest, s.inputs = .engine :: rest) ∧ engineTurn s0 = .next t) ∨
       (∃ op rest, s.inputs = .bus op :: rest ∧ s.rst = false ∧ t = busStep op s0) ∨
       (∃ rest, s.inputs = .rst true :: rest ∧ t = holdReset s0) ∨
       (∃ rest, s.inputs = .rst false :: rest ∧ t = { s0 with rst := false })) := by
  simp only [step, nextTurn] at h
  split at h
  · next hi => exact ⟨s, .inl ⟨hi, rfl⟩, .inl ⟨.inl hi, h⟩⟩
  · next i rest hi =>
    refine ⟨{ s with inputs := rest }, .inr ⟨i, rest, hi, rfl⟩, ?_⟩
    cases i with
    | bus op =>
      simp only [takeTurn, hostTurn] at h
      split at h
      · cases h
      · next hr => cases h; exact .inr (.inl ⟨op, rest, hi, by simpa using hr, rfl⟩)
    | engine => exact .inl ⟨.inr ⟨rest, hi⟩, h⟩
    | rst a =>
      simp only [takeTurn, rstTurn] at h
      cases a <;> cases h
      · exact .inr (.inr (.inr ⟨rest, hi, rfl⟩))
      · exact .inr (.inr (.inl ⟨rest, hi, rfl⟩))

end Sys2Proof.Machine
end

