-- ==== Sys2Proof/Laws/HostProgram.lean ====
section
/-! SUPPORT. What a RUN and the host's reads do on an idle block, and that the extraction's passes are those of the loop (30_encoding.md rule R91, 70_reset_and_hazards.md rule R195). -/

namespace Sys2Proof.Machine

open Sys2Proof

/-- R65: a read of an idle block returns the stored value. -/
@[simp] theorem readData_idle {s : State} (h : s.busy = false) (a : Addr) :
    readData a s = readStored s (regAt a) := by
  simp [readData, readReg, h]

/-- R61: the data of an aligned read's answer. -/
theorem readAnswer_aligned {a : Addr} (h : aligned a = true) (s : State) :
    readAnswer a s = some (.read (readData a s) .ok) := by
  simp [readAnswer, busRead, h, readData]

/-- R83: a full CMD write to an idle block is the issue of its word. -/
theorem cmdWrite_idle {s : State} (h : s.busy = false) (w : Word) :
    busWrite 0x00C 0xF w s = { issue w s with answer := some (.write .ok) } := by
  have hw : writeReg 0x00C w s = issue w s := by
    unfold writeReg
    rw [show regAt 0x00C = .cmd by decide]
    simp [h]
  rw [busWrite, if_pos (by decide), hw]

/-- R91: a RUN on an idle block is the command's rule and its completion. -/
theorem runCommand_idle {s : State} (hr : s.rst = false) (hb : s.busy = false) (i : Instr) :
    runCommand i s =
      match exec i { issue (encode i) s with answer := some (.write .ok) } with
      | .next t => .next (complete t)
      | .fault f => .fault f
      | .refused r => .refused r := by
  have hd : decode (encode i) = .ok i := by cases i <;> decide
  simp only [runCommand, cmdWrite_idle hb]
  simp [engineTurn, engineComplete, execute, issue, hr, hd] <;> rfl

/-- R195, step 6: the loop goes on after a pass that read no EXT_END. -/
theorem pullLoop_succ {s t : State} {polls fuel : Nat} (h : runCommand .extNext s = .next t)
    (he : (readData 0x008 t).getLsbD 5 = false) (hv : (readData 0x008 t).getLsbD 4 = true)
    {pulls : List Pull} {reads : List Readout} (hl : pullLoop polls fuel t = some (pulls, reads)) :
    pullLoop polls (fuel + 1) s =
      some (⟨polls, some (decide (32 < (readTriple t).len.toNat))⟩ :: pulls, readTriple t :: reads) := by
  simp only [pullLoop, h, he, hv, hl, if_true, List.singleton_append, Bool.false_eq_true, if_false]

/-- R195, step 6: the loop ends with the pass that read EXT_END. -/
theorem pullLoop_end {s t : State} {polls fuel : Nat} (h : runCommand .extNext s = .next t)
    (he : (readData 0x008 t).getLsbD 5 = true) (hv : (readData 0x008 t).getLsbD 4 = false) :
    pullLoop polls (fuel + 1) s = some ([⟨polls, none⟩], []) := by
  simp only [pullLoop, h, he, hv, if_true, Bool.false_eq_true, if_false]

end Sys2Proof.Machine
end

