-- ==== Sys2Proof/Laws/PerInstr.lean ====
section
/-! SUPPORT. The family CommandWord: the word of each command is the one of spec/opcode_table.json, with a clear reserved field (30_encoding.md rules R80 and R81). -/

namespace Sys2Proof.Laws.CommandWord

open Sys2Proof

/-- The opcode table's column "match" (spec/opcode_table.json). -/
def tableWord : Instr → Word
  | .nop => 0x00000000
  | .clearFreq => 0x00000001
  | .seed => 0x00000002
  | .merge => 0x00000003
  | .build => 0x00000004
  | .extStart => 0x00000005
  | .extNext => 0x00000006

/-- A command is well formed, its word is the table's and is a well-formed command word (mask 0xFFFFFFFF: every bit is fixed). -/
def Statement (i : Instr) : Prop :=
  i.wellFormed = true ∧ encode i = tableWord i ∧ wordWellFormed (encode i) = true

theorem nop : Statement .nop := by unfold Statement; decide
theorem clearFreq : Statement .clearFreq := by unfold Statement; decide
theorem seed : Statement .seed := by unfold Statement; decide
theorem merge : Statement .merge := by unfold Statement; decide
theorem build : Statement .build := by unfold Statement; decide
theorem extStart : Statement .extStart := by unfold Statement; decide
theorem extNext : Statement .extNext := by unfold Statement; decide

end Sys2Proof.Laws.CommandWord
end

