-- ==== Sys2Proof/Tests/Slice0.lean ====
section
/-! SUPPORT. The author's tests: decoding, one step on small states (expected results from 95_test_vectors.md), and a witness for the hypotheses of each statement. -/

namespace Sys2Proof.Tests

open Sys2Proof Sys2Proof.Machine

/-! ## Helpers -/

/-- The next state, if the outcome is one. -/
def nextOf : Host.Outcome State Fault Refusal → Option State
  | .next s => some s
  | .fault _ => none
  | .refused _ => none

theorem next_of_isSome {o : Host.Outcome State Fault Refusal} (h : (nextOf o).isSome = true) : ∃ t, o = .next t := by
  cases o with
  | next t => exact ⟨t, rfl⟩
  | fault f => simp [nextOf] at h
  | refused r => simp [nextOf] at h

/-- The table of vector B1: 0x61:2, 0x62:3, 0x63:2. -/
def tTable : State := writeFreq 0x63 2 (writeFreq 0x62 3 (writeFreq 0x61 2 State.reset))

/-- The table of vector B9, which overflows: 0:0xFFFFFFFF, 1:1. -/
def tOver : State := writeFreq 1 1 (writeFreq 0 0xFFFFFFFF State.reset)

/-- B1 after SEED. -/
def tSeeded : State :=
  { tTable with
    nodes := [.leaf 0x61 2, .leaf 0x62 3, .leaf 0x63 2], act := [0, 1, 2], nleaf := 3, total := 7, phase := .seeded }

/-- B1 after BUILD. -/
def tTree : State :=
  { tTable with
    nodes := [.leaf 0x61 2, .leaf 0x62 3, .leaf 0x63 2, .internal 4 0 2, .internal 7 1 3]
    act := [4], nleaf := 3, root := 4, total := 7, phase := .tree }

/-- B1 after BUILD, EXT_START and one EXT_NEXT (P1, line 9). -/
def tPulled : State :=
  { tTree with
    extActive := true, extValid := true, extIdx := 1, outSym := 0x62, outLen := 1, outCount := 3, outCode := 0 }

/-- B2 after BUILD: the single-leaf tree. -/
def tSingle : State :=
  { writeFreq 0x61 5 State.reset with
    nodes := [.leaf 0x61 5], act := [0], nleaf := 1, root := 0, total := 5, phase := .tree }

/-- B3 after BUILD: no tree. -/
def tEmpty : State := { State.reset with phase := .empty }

/-- A state with a command word pending. -/
def withPending (w : Word) (s : State) : State := { s with busy := true, pending := w }

/-! ## Well-formedness (one ill-formed word for each check) -/

theorem test_zero_field_check_refuses : WordCheck.zeroOk 0x00000010 = false := by decide
theorem test_op_check_refuses_7 : WordCheck.opOk 0x00000007 = false := by decide
theorem test_op_check_refuses_F : WordCheck.opOk 0x0000000F = false := by decide
theorem test_word_refused_for_zero_field : wordWellFormed 0x00000010 = false := by decide
theorem test_word_refused_for_op : wordWellFormed 0x00000007 = false := by decide
theorem test_word_accepted : wordWellFormed 0x00000006 = true := by decide

/-! ## Decoding: each command's word, bit by bit (R80, R81: ZERO [31:4], OP [3:0]) -/

theorem test_decode_nop : decode 0b0000000000000000000000000000_0000 = .ok .nop := by decide
theorem test_decode_clearFreq : decode 0b0000000000000000000000000000_0001 = .ok .clearFreq := by decide
theorem test_decode_seed : decode 0b0000000000000000000000000000_0010 = .ok .seed := by decide
theorem test_decode_merge : decode 0b0000000000000000000000000000_0011 = .ok .merge := by decide
theorem test_decode_build : decode 0b0000000000000000000000000000_0100 = .ok .build := by decide
theorem test_decode_extStart : decode 0b0000000000000000000000000000_0101 = .ok .extStart := by decide
theorem test_decode_extNext : decode 0b0000000000000000000000000000_0110 = .ok .extNext := by decide
theorem test_decode_reserved_F : decode 0b0000000000000000000000000000_1111 = .error .reservedOp := by decide
theorem test_decode_high_bit : decode 0b1000000000000000000000000000_0011 = .error .zeroFieldSet := by decide
theorem test_decodeTableWord : decodeTableWord 32 3 = some .merge ∧ decodeTableWord 32 0x17 = none := by decide

/-! ## The selector (vectors S1, S3, S7) -/

theorem test_select_tie_earliest :
    selectRemove [.leaf 0x61 2, .leaf 0x62 3, .leaf 0x63 2] [0, 1, 2] = some (0, [1, 2]) := by decide
theorem test_select_leaf_before_internal :
    selectRemove [.leaf 0x61 1, .leaf 0x62 1, .leaf 0x63 2, .internal 2 0 1] [2, 3] = some (2, [3]) := by decide
theorem test_select_unsigned :
    selectRemove [.leaf 0 0xFFFFFFFF, .leaf 1 0xFFFFFFFE] [0, 1] = some (1, [0]) := by decide

/-! ## The commands -/

/-- E1. -/
theorem test_nop_status :
    (nextOf (step (State.reset.withFetchWord 32 0))).map State.status = some 0x002 := by decide +kernel

/-- R102's example, B16: the tree stays. -/
theorem test_clearFreq :
    (nextOf (exec .clearFreq tTree)).map (fun t => (readFreq t 0x61, t.phase, t.root)) = some (0, .tree, 4) := by
  decide +kernel

/-- B1's SEED (R104's example). -/
theorem test_seed :
    (nextOf (exec .seed tTable)).map (fun t => (t.nodes, t.act, t.phase)) =
      some ([.leaf 0x61 2, .leaf 0x62 3, .leaf 0x63 2], [0, 1, 2], .seeded) := by decide +kernel

/-- E8. -/
theorem test_seed_overflow :
    (nextOf (step (tOver.withFetchWord 32 2))).map (fun t => (t.status, t.errinfo, t.total)) =
      some (0x4006, 0x2, 0) := by decide +kernel

/-- B14, first MERGE (R108's example). -/
theorem test_merge :
    (nextOf (exec .merge tSeeded)).map (fun t => (t.nodes.drop 3, t.act, t.phase)) =
      some ([.internal 4 0 2], [1, 3], .seeded) := by decide +kernel

/-- E5. -/
theorem test_merge_sequence :
    (nextOf (step (State.reset.withFetchWord 32 3))).map (fun t => (t.status, t.errinfo)) = some (0x3006, 0x3) := by
  decide +kernel

/-- B1's BUILD (R112's example). -/
theorem test_build :
    (nextOf (exec .build tTable)).map (fun t => (t.nodes.drop 3, t.root, t.total, t.phase)) =
      some ([.internal 4 0 2, .internal 7 1 3], 4, 7, .tree) := by decide +kernel

/-- B7: the merged node is popped before the heavier leaf, so the leaf is the right child. -/
theorem test_build_left_right :
    (nextOf (exec .build (writeFreq 2 1 (writeFreq 1 1 (writeFreq 0 5 State.reset))))).map (fun t => t.nodes.drop 3) =
      some [.internal 2 1 2, .internal 7 3 0] := by decide +kernel

/-- R141's example. -/
theorem test_extStart :
    (nextOf (exec .extStart tPulled)).map (fun t => (t.extActive, t.extValid, t.extIdx, t.outSym)) =
      some (true, false, 0, 0) := by decide +kernel

/-- X14: EXT_START in SEEDED. -/
theorem test_extStart_sequence :
    (nextOf (exec .extStart tSeeded)).map (fun t => (t.errcode, t.errinfo, t.extActive)) =
      some (.sequence, 0x5, false) := by decide +kernel

/-- X1, second triple. -/
theorem test_extNext :
    (nextOf (exec .extNext tPulled)).map (fun t => (t.outSym, t.outLen, t.outCount, t.outCode, t.extIdx)) =
      some (0x61, 2, 2, 0x1, 2) := by decide +kernel

/-- X3: the first EXT_NEXT in EMPTY. -/
theorem test_extNext_end :
    (nextOf (exec .extNext { tEmpty with extActive := true })).map (fun t => (t.extEnd, t.extValid, t.extIdx)) =
      some (true, false, 0) := by decide +kernel

/-! ## Errors, the bus, reset -/

/-- E2. -/
theorem test_illegal_word :
    (nextOf (step (State.reset.withFetchWord 32 7))).map (fun t => (t.status, t.errinfo)) = some (0x1006, 0x7) := by
  decide +kernel

/-- E9 (b): a FREQ write while BUSY. -/
theorem test_busy_write_dropped :
    (let t := busWrite 0x400 0xF 9 (withPending 4 State.reset); (t.err, t.errcode, t.errinfo, readFreq t 0)) =
      (true, .busy, 0x400, 0) := by decide +kernel

/-- E6: the first error wins. -/
theorem test_first_error_wins :
    (let t := raiseError .sequence 0x6 (raiseError .sequence 0x3 State.reset); t.errinfo) = 0x3 := by decide

/-- M2, M3: misaligned. -/
theorem test_misaligned : readAnswer 0x002 State.reset = some (.read 0 .err) := by decide +kernel

/-- M7. -/
theorem test_ctrl_reserved_bits :
    readAnswer 0x004 (busWrite 0x004 0xF 0xFFFFFFFF State.reset) = some (.read 0x00000003 .ok) := by decide +kernel

/-- M12. -/
theorem test_node_info_internal :
    readAnswer 0x064 { tTree with nodeSel := 3 } = some (.read 0xC0000400 .ok) := by decide +kernel

/-- M13. -/
theorem test_node_info_leaf :
    readAnswer 0x064 { tTree with nodeSel := 1 } = some (.read 0x81880000 .ok) := by decide +kernel

/-- M15. -/
theorem test_act_entry :
    readAnswer 0x070 { tSeeded with actSel := 2 } = some (.read 0x80000002 .ok) := by decide +kernel

/-- X11: path bit 32 stands in OUT_CODE1. -/
theorem test_code_word_1 :
    (let s := { tTree with outCode := codeReg (List.replicate 33 true) }; s.outCodeWord 1) = 0x00000001 := by
  decide +kernel

/-- M10. -/
theorem test_irq_done :
    (let s := complete { State.reset with ieDone := true }; (s.irq, (busWrite 0x008 0xF 2 s).irq)) = (true, false) := by
  decide +kernel

/-- A free read while BUSY is the draw of the counter, whatever its value. -/
theorem test_busy_read_is_free :
    readAnswer 0x010 { withPending 2 tTree with draws := 5 } = some (.read (Config.freeRead 5) .ok) := rfl

/-- RS-2: reset while BUILD is pending. -/
theorem test_reset_discards_pending :
    (nextOf (step { withPending 4 tTable with inputs := [.rst true] })).map (fun t => (t.busy, t.done, t.status)) =
      some (false, false, 0) := by decide +kernel

/-- R191, U14. -/
theorem test_bus_during_reset_refused :
    step { State.reset with rst := true, inputs := [.bus (.read 0x000 0xF)] } = .refused .busDuringReset := rfl

/-- R91: WAIT with two busy polls. -/
theorem test_wait_turns :
    (Pseudo.wait 2).turns = [.bus (.read 8 0xF), .bus (.read 8 0xF), .engine, .bus (.read 8 0xF)] := by decide

/-- R195: steps 3 to 6 of P1 by its first triple and the end, with no busy poll. -/
theorem test_encode_turns :
    encodeTurns ⟨none, none, [(0x61, 2)], some (.build 0), some ⟨0, [⟨0, some false⟩, ⟨0, none⟩]⟩⟩ =
      [.bus (.write 0x584 0xF 2), .bus (.write 0x00C 0xF 4), .engine, .bus (.read 0x008 0xF), .bus (.read 0x008 0xF),
       .bus (.write 0x00C 0xF 5), .engine, .bus (.read 0x008 0xF),
       .bus (.write 0x00C 0xF 6), .engine, .bus (.read 0x008 0xF),
       .bus (.read 0x008 0xF), .bus (.read 0x030 0xF), .bus (.read 0x034 0xF), .bus (.read 0x038 0xF),
       .bus (.read 0x040 0xF),
       .bus (.write 0x00C 0xF 6), .engine, .bus (.read 0x008 0xF)] := by decide

/-- P1, lines 8 to 15: the triples the host reads. -/
theorem test_extraction_reads_P1 :
    (hostExtraction 0 tTree).map Prod.snd =
      some [⟨0x62, 1, 3, [0x0]⟩, ⟨0x61, 2, 2, [0x1]⟩, ⟨0x63, 2, 2, [0x3]⟩] := by decide +kernel

/-- R66: the lanes are little-endian. -/
theorem test_lane : laneByte 0x48554631 0 = 0x31 ∧ laneByte 0x48554631 3 = 0x48 := by decide

/-! ## States that meet the invariant -/

theorem seeded_builder : BuilderInv tSeeded where
  phase := ⟨by decide, rfl⟩
  size := by decide
  leaves := by decide
  shape := fun i h => by
    have hi : i < 3 := h
    interval_cases i <;> exact ⟨by decide, by decide⟩
  symbols := by decide
  forest := by decide
  order := by decide
  sum := by decide

theorem tree_builder : BuilderInv tTree where
  phase := ⟨rfl, by decide⟩
  size := by decide
  leaves := by decide
  shape := fun i h => by
    have hi : i < 5 := h
    interval_cases i
    · exact ⟨by decide, by decide⟩
    · exact ⟨by decide, by decide⟩
    · exact ⟨by decide, by decide⟩
    · exact ⟨by decide, by decide, by decide, by decide⟩
    · exact ⟨by decide, by decide, by decide, by decide⟩
  symbols := by decide
  forest := by decide
  order := by decide
  sum := by decide

theorem single_builder : BuilderInv tSingle where
  phase := ⟨rfl, by decide⟩
  size := by decide
  leaves := by decide
  shape := fun i h => by
    have hi : i < 1 := h
    interval_cases i; exact ⟨by decide, by decide⟩
  symbols := by decide
  forest := by decide
  order := by decide
  sum := by decide

theorem empty_builder : BuilderInv tEmpty where
  phase := ⟨rfl, rfl, rfl, rfl, rfl⟩
  size := by decide
  leaves := by decide
  shape := fun i h => absurd h (Nat.not_lt_zero i)
  symbols := by decide
  forest := by decide
  order := by decide
  sum := by decide

/-- The invariant of a state with an inactive extractor, no error and reset deasserted follows from the builder's. -/
theorem inv_of_builder {s : State} (h : BuilderInv s) (ha : extractorClear s) (he : s.err = false)
    (hc : s.errcode = .none) (hi : s.errinfo = 0) (hr : s.rst = false) : Inv s where
  builder := h
  extractor := by
    unfold extractorInv
    rw [ha.1]
    exact ⟨ha.2.1, ha.2.2.1, ha.2.2.2.1, ha.2.2.2.2⟩
  error := ⟨by simp [he, hc], fun _ => hi⟩
  reset := fun h => by simp [hr] at h

theorem seeded_inv : Inv tSeeded :=
  inv_of_builder seeded_builder ⟨rfl, rfl, rfl, rfl, rfl, rfl, rfl, rfl⟩ rfl rfl rfl rfl

theorem tree_inv : Inv tTree :=
  inv_of_builder tree_builder ⟨rfl, rfl, rfl, rfl, rfl, rfl, rfl, rfl⟩ rfl rfl rfl rfl

theorem single_inv : Inv tSingle :=
  inv_of_builder single_builder ⟨rfl, rfl, rfl, rfl, rfl, rfl, rfl, rfl⟩ rfl rfl rfl rfl

theorem empty_inv : Inv tEmpty :=
  inv_of_builder empty_builder ⟨rfl, rfl, rfl, rfl, rfl, rfl, rfl, rfl⟩ rfl rfl rfl rfl

/-- The leaf sequence of B1 (X1). -/
theorem tree_seq :
    tTree.seq = some [⟨0x62, [false], 3⟩, ⟨0x61, [true, false], 2⟩, ⟨0x63, [true, true], 2⟩] := by decide

/-- The builder's invariant reads the builder's fields only. -/
theorem pulled_builder : BuilderInv tPulled :=
  ⟨tree_builder.phase, tree_builder.size, tree_builder.leaves, tree_builder.shape, tree_builder.symbols,
    tree_builder.forest, tree_builder.order, tree_builder.sum⟩

theorem pulled_inv : Inv tPulled where
  builder := pulled_builder
  extractor :=
    ⟨.inl rfl, _, tree_seq, .inr (.inl ⟨rfl, rfl, 0, ⟨0x62, [false], 3⟩, rfl, rfl, rfl, rfl, rfl, by decide⟩)⟩
  error := ⟨by decide, fun _ => rfl⟩
  reset := fun h => by simp [tPulled, tTree, tTable, State.reset] at h

/-- The invariant does not read `busy`, `pending` or the turns to come. -/
theorem inv_pending {s : State} (h : Inv s) (hr : s.rst = false) (w : Word) (ins : List Input) :
    Inv { withPending w s with inputs := ins } where
  builder :=
    ⟨h.builder.phase, h.builder.size, h.builder.leaves, h.builder.shape, h.builder.symbols, h.builder.forest,
      h.builder.order, h.builder.sum⟩
  extractor := h.extractor
  error := h.error
  reset := fun e => by simp [withPending, hr] at e

/-! ## A witness for the hypotheses of each statement -/

/-- B1 with one merge left: the merge of it ends the loop. -/
def tLast : State :=
  { tTable with
    nodes := [.leaf 0x61 2, .leaf 0x62 3, .leaf 0x63 2, .internal 4 0 2]
    act := [1, 3], nleaf := 3, total := 7, phase := .seeded }

theorem last_inv : Inv tLast :=
  inv_of_builder
    { phase := ⟨by decide, rfl⟩
      size := by decide
      leaves := by decide
      shape := fun i h => by
        have hi : i < 4 := h
        interval_cases i
        · exact ⟨by decide, by decide⟩
        · exact ⟨by decide, by decide⟩
        · exact ⟨by decide, by decide⟩
        · exact ⟨by decide, by decide, by decide, by decide⟩
      symbols := by decide
      forest := by decide
      order := by decide
      sum := by decide }
    ⟨rfl, rfl, rfl, rfl, rfl, rfl, rfl, rfl⟩ rfl rfl rfl rfl

/-- A held reset with a transaction due. -/
def tHeld : State := { State.reset with rst := true, inputs := [.bus (.read 0x000 0xF)] }

theorem held_inv : Inv tHeld where
  builder :=
    { phase := ⟨rfl, rfl, rfl, rfl, rfl⟩
      size := by decide
      leaves := by decide
      shape := fun i h => absurd h (Nat.not_lt_zero i)
      symbols := by decide
      forest := by decide
      order := by decide
      sum := by decide }
  extractor := ⟨rfl, rfl, rfl, rfl, rfl, rfl, rfl⟩
  error := ⟨by decide, fun _ => rfl⟩
  reset := fun _ => rfl

theorem witness_OpcodeMapIsExact :
    decode 4 = .ok .build ∧ (7 : Nat) ≤ (7 : Word).toNat ∧ (15 : Word).toNat ≤ 15 := by decide

theorem witness_IllegalWordsOnlyRecordAnError :
    (zeroField 0x10 ≠ 0 ∧ State.reset.rst = false ∧ State.reset.busy = false) ∧
    (7 ≤ (opField 7).toNat ∧ (withPending 7 State.reset).rst = false ∧ (withPending 7 State.reset).busy = true ∧
      (withPending 7 State.reset).pending = 7) ∧ 7 ≤ (opField 0xF).toNat := by decide

theorem witness_StepRunsThePendingCommand :
    (let s := { withPending 3 tSeeded with inputs := [.engine, .rst true] };
      s.rst = false ∧ s.busy = true ∧ decode s.pending = .ok .merge ∧ s.inputs = .engine :: [.rst true]) ∧
    (let s := withPending 3 tSeeded;
      s.rst = false ∧ s.busy = true ∧ decode s.pending = .ok .merge ∧ s.inputs = []) := by decide

theorem witness_StepTakesTheNextTurn :
    (let s := { tTree with inputs := [.bus (.read 8 0xF)] }; s.inputs = .bus (.read 8 0xF) :: [] ∧ s.rst = false) ∧
    (tHeld.inputs = .bus (.read 0x000 0xF) :: [] ∧ tHeld.rst = true) ∧
    (let s := { tTree with inputs := [.engine] }; s.inputs = .engine :: [] ∧ s.rst = false ∧ s.busy = false) ∧
    tTree.inputs = [] ∧ tTree.rst = false ∧ tTree.busy = false := by decide

theorem witness_EveryPendingWordCompletes :
    Inv (withPending 3 tSeeded) ∧ (withPending 3 tSeeded).rst = false ∧ (withPending 3 tSeeded).busy = true :=
  ⟨inv_pending seeded_inv rfl 3 [], rfl, rfl⟩

theorem witness_PendingCommandEventuallyCompletes :
    let s := { withPending 6 tPulled with inputs := [.bus (.read 8 0xF), .rst false, .bus (.write 0xC 0xF 0)] }
    Inv s ∧ s.rst = false ∧ s.busy = true ∧ noReset s.inputs = true :=
  ⟨inv_pending pulled_inv rfl 6 _, rfl, rfl, by decide⟩

theorem witness_StepKeepsTheInvariant :
    Inv (withPending 4 tPulled) ∧ ∃ t, step (withPending 4 tPulled) = .next t :=
  ⟨inv_pending pulled_inv rfl 4 [], next_of_isSome (by decide +kernel)⟩

theorem witness_StepNeverFaults :
    Inv (withPending 6 tPulled) ∧ (Inv tHeld ∧ step tHeld = .refused .busDuringReset) :=
  ⟨inv_pending pulled_inv rfl 6 [], held_inv, rfl⟩

theorem witness_NodeCounts :
    (Inv tTree ∧ tTree.phase = .tree) ∧ (Inv tLast ∧ tLast.phase = .seeded) := ⟨⟨tree_inv, rfl⟩, last_inv, rfl⟩

theorem witness_InternalCountsAreSums :
    Inv (withPending 0 tTree) ∧
    (nextOf (step (withPending 0 tTree))).map (fun t => (nodeAt t.nodes 0, nodeAt t.nodes 4)) =
      some (some (.leaf 0x61 2), some (.internal 7 1 3)) :=
  ⟨inv_pending tree_inv rfl 0 [], by decide +kernel⟩

theorem witness_EveryNodeHasOneParent :
    Inv tTree ∧ tTree.phase = .tree ∧ nodeAt tTree.nodes 3 = some (.internal 4 0 2) ∧
      nodeAt tTree.nodes 0 = some (.leaf 0x61 2) ∧ 4 < tTree.nodes.length := ⟨tree_inv, by decide⟩

theorem witness_RootCountIsTheTotal : (Inv tTree ∧ tTree.phase = .tree) ∧ fits tTable :=
  ⟨⟨tree_inv, rfl⟩, by decide +kernel⟩

theorem witness_ActiveSetIsIncreasing :
    (Inv tTree ∧ tTree.phase = .tree) ∧
    (Inv tLast ∧ tLast.phase = .seeded ∧ tLast.act[0]? = some 1 ∧ tLast.act[1]? = some 3 ∧
      nodeAt tLast.nodes 1 = some (.leaf 0x62 3) ∧ nodeAt tLast.nodes 3 = some (.internal 4 0 2)) :=
  ⟨⟨tree_inv, rfl⟩, last_inv, by decide⟩

/-- S4: the later position has the smaller count, so an earlier position precedes it. -/
theorem witness_SelectionIsEarliestMinimum :
    let nodes : List Node := [.leaf 0 5, .leaf 1 1, .leaf 2 1, .internal 2 1 2]
    selectRemove nodes [0, 3] = some (3, [0]) ∧ ([0, 3] : List NodeIdx)[0]? = some 0 ∧
      nodeAt nodes 0 = some (.leaf 0 5) ∧ ([0, 3] : List NodeIdx) ≠ [] ∧
      ∀ y ∈ ([0, 3] : List NodeIdx), (nodeAt nodes y).isSome := by decide

/-- The two selected counts of B1 are equal, the boundary of the tie rule. -/
theorem witness_SecondSelectionFollowsFirst :
    Inv tSeeded ∧ tSeeded.phase = .seeded ∧ ∃ t, exec .merge tSeeded = .next t :=
  ⟨seeded_inv, rfl, next_of_isSome (by decide +kernel)⟩

theorem witness_SelectionIsLeastKey :
    let nodes : List Node := [.leaf 0x61 2, .leaf 0x62 3, .leaf 0x63 2]
    ([0, 1, 2] : List NodeIdx).Pairwise (fun a b => a.toNat < b.toNat) ∧
      selectRemove nodes [0, 1, 2] = some (0, [1, 2]) ∧ nodeAt nodes 2 = some (.leaf 0x63 2) := by decide

theorem witness_NopOnlyCompletes :
    (withPending 0 tTree).rst = false ∧ (withPending 0 tTree).busy = true ∧ (withPending 0 tTree).pending = 0 ∧
      zeroField 0x10 ≠ 0 := by decide

theorem witness_ClearFreqZeroesTheTable : ∀ sym : Sym, readFreq State.reset sym = 0 := by
  intro sym; simp [readFreq, State.reset]

/-- Tables with no, one and three present symbols. -/
theorem witness_SeedWithoutOverflow :
    (fits State.reset ∧ (presentSyms State.reset).length = 0) ∧
    (fits tSingle ∧ (presentSyms tSingle).length = 1) ∧
    (fits tTable ∧ (presentSyms tTable).length = 3) := by decide +kernel

/-- B9's table is one above the bound, B11's is at it. -/
theorem witness_OverflowLeavesNoTree :
    ¬ fits tOver ∧ freqTotal tOver.freq = 0x100000000 ∧ fits (writeFreq 7 0xFFFFFFFF State.reset) := by decide +kernel

theorem witness_MergeOutsideTheLoop :
    tTree.phase = .tree ∧ tEmpty.phase = .empty ∧ State.reset.phase = .none := by decide

/-- One merge that leaves two members and one that leaves one. -/
theorem witness_MergeJoinsTheTwoLeast :
    (Inv tSeeded ∧ tSeeded.phase = .seeded ∧
      (nextOf (exec .merge tSeeded)).map (fun t => t.act.length) = some 2) ∧
    (Inv tLast ∧ tLast.phase = .seeded ∧
      (nextOf (exec .merge tLast)).map (fun t => t.act.length) = some 1) :=
  ⟨⟨seeded_inv, rfl, by decide +kernel⟩, last_inv, rfl, by decide +kernel⟩

theorem witness_MergesTerminate :
    fits tTable ∧ 2 ≤ (presentSyms tTable).length ∧ 2 = (presentSyms tTable).length - 1 := by decide +kernel

theorem witness_BuildMakesTheWholeTree :
    (fits State.reset ∧ (presentSyms State.reset).length = 0) ∧
    (fits tSingle ∧ (presentSyms tSingle).length = 1) := by decide +kernel

theorem witness_BuildEqualsSeedThenMerges :
    (fits tTable ∧ tTable.rst = false ∧ tTable.busy = false) ∧ fits State.reset := by decide +kernel

theorem witness_SameTableSameTree : tTable.freq = tPulled.freq := rfl

theorem witness_BusyTrafficNeverReachesTheResult :
    (withPending 4 tTable).rst = false ∧ (withPending 4 tTable).busy = true ∧
      ∃ t, engineTurn (withPending 4 tTable) = .next t :=
  ⟨rfl, rfl, next_of_isSome (by decide +kernel)⟩

theorem witness_ExtStartByPhase :
    tTree.phase = .tree ∧ tEmpty.phase = .empty ∧ State.reset.phase = .none ∧ tSeeded.phase = .seeded := by decide

/-- The whole tree of B1 with its sequence exhausted. -/
def tEnded : State := 
  { tPulled with extValid := false, extEnd := true, extIdx := 3, outSym := 0, outLen := 0, outCount := 0 }

theorem ended_inv : Inv tEnded where
  builder := ⟨tree_builder.phase, tree_builder.size, tree_builder.leaves, tree_builder.shape, tree_builder.symbols,
    tree_builder.forest, tree_builder.order, tree_builder.sum⟩
  extractor := ⟨.inl rfl, _, tree_seq, .inr (.inr ⟨rfl, rfl, rfl, rfl, rfl, rfl, rfl⟩)⟩
  error := ⟨by decide, fun _ => rfl⟩
  reset := fun h => by simp [tEnded, tPulled, tTree, tTable, State.reset] at h

theorem witness_ExtNextPullsTheNextTriple :
    tTree.extActive = false ∧
    (Inv tPulled ∧ tPulled.extActive = true ∧
      tPulled.seq.bind (fun q => q[tPulled.extIdx.toNat]?) = some ⟨0x61, [true, false], 2⟩) ∧
    (Inv tEnded ∧ tEnded.extActive = true ∧ tEnded.seq.map List.length = some tEnded.extIdx.toNat) :=
  ⟨rfl, ⟨pulled_inv, rfl, by decide⟩, ended_inv, rfl, by decide⟩

theorem witness_LeafSequenceIsDepthFirst :
    (Inv tTree ∧ tTree.phase = .tree ∧ nodeAt tTree.nodes 1 = some (.leaf 0x62 3) ∧
      nodeAt tTree.nodes 4 = some (.internal 7 1 3)) ∧
    (Inv tSeeded ∧ tSeeded.phase ≠ .tree) := ⟨⟨tree_inv, by decide⟩, seeded_inv, by decide⟩

theorem witness_EmptyTreeExtractsNothing : tEmpty.phase = .empty := rfl

theorem witness_EveryLeafExactlyOnce :
    Inv tPulled ∧ tPulled.phase = .tree ∧ tPulled.extActive = true ∧
      tPulled.seq.bind (fun q => q[tPulled.extIdx.toNat]?) = some ⟨0x61, [true, false], 2⟩ :=
  ⟨pulled_inv, rfl, rfl, by decide⟩

theorem witness_CodesFitTheOutputRegisters :
    Inv tTree ∧ ∃ q, tTree.seq = some q ∧ (⟨0x63, [true, true], 2⟩ : Triple) ∈ q :=
  ⟨tree_inv, _, tree_seq, by decide⟩

theorem witness_SingleLeafHasTheEmptyCode :
    (Inv tSingle ∧ tSingle.phase = .tree ∧ tSingle.nleaf.toNat = 1) ∧
    (Inv tTree ∧ tTree.phase = .tree ∧ 2 ≤ tTree.nleaf.toNat) :=
  ⟨⟨single_inv, by decide⟩, tree_inv, by decide⟩

theorem witness_CodesArePrefixFree :
    Inv tTree ∧ tTree.phase = .tree ∧ 2 ≤ tTree.nleaf.toNat ∧
      ∃ q, tTree.seq = some q ∧ q[0]? = some ⟨0x62, [false], 3⟩ ∧ q[2]? = some ⟨0x63, [true, true], 2⟩ :=
  ⟨tree_inv, rfl, by decide, _, tree_seq, rfl, rfl⟩

theorem witness_ExtractionIsReadOnly :
    (∃ t, exec .extStart tTree = .next t) ∧ ∃ t, exec .extNext tPulled = .next t :=
  ⟨next_of_isSome (by decide +kernel), next_of_isSome (by decide +kernel)⟩

theorem witness_ActiveExtractorKeepsItsTree :
    Inv (withPending 6 tPulled) ∧ (withPending 6 tPulled).extActive = true ∧
      (nextOf (step (withPending 6 tPulled))).map State.extActive = some true :=
  ⟨inv_pending pulled_inv rfl 6 [], rfl, by decide +kernel⟩

theorem witness_FirstErrorWins :
    State.reset.err = false ∧ (raiseError .sequence 3 State.reset).err = true := by decide

theorem witness_RecordedErrorStaysUntilCleared :
    let s := { raiseError .sequence 3 State.reset with inputs := [.bus (.write 0x008 0xF 0x2)] };
    s.err = true ∧ s.rst = false ∧ (∃ t, step s = .next t) ∧ (∀ rest, s.inputs ≠ .rst true :: rest) ∧
      ∀ w rest, s.inputs = .bus (.write 0x008 0xF w) :: rest → w.getLsbD 2 = false := by
  refine ⟨by decide, by decide, ⟨_, rfl⟩, fun rest h => ?_, fun w rest h => ?_⟩
  · cases h
  · cases h; decide

theorem witness_InterruptLevel :
    (0x6 : Word).getLsbD 1 = true ∧ (0x6 : Word).getLsbD 2 = true ∧
      (0xFFFFFFFC : Word).getLsbD 0 = false ∧ (0xFFFFFFFC : Word).getLsbD 1 = false := by decide

theorem witness_MisalignedAndPartialAccesses :
    (0x001 : Addr).toNat % 4 ≠ 0 ∧ (0xFFF : Addr).toNat % 4 ≠ 0 ∧ (0x7 : ByteEn) ≠ 0xF := by decide

/-- The first and the last FREQ offset, and the first and the last aligned offset no clause but the last speaks of. -/
theorem witness_WriteDispatch :
    (0x400 : Addr).toNat = 0x400 + 4 * (0 : Sym).toNat ∧ (0x7FC : Addr).toNat = 0x400 + 4 * (255 : Sym).toNat ∧
      (∀ sym : Sym, (0x000 : Addr).toNat ≠ 0x400 + 4 * sym.toNat) ∧
      (∀ sym : Sym, (0xFFC : Addr).toNat ≠ 0x400 + 4 * sym.toNat) ∧
      (withPending 4 tTable).busy = true ∧ tTable.busy = false := by
  refine ⟨by decide, by decide, fun sym => ?_, fun sym => ?_, by decide, by decide⟩
  · simp; omega
  · have := sym.isLt; simp; omega

theorem witness_ReadsHaveNoSideEffect : (0xFFC : Addr).toNat % 4 = 0 ∧ tTree.busy = false := by decide

theorem witness_ReadsWhileBusy :
    (withPending 4 tTable).busy = true ∧ Reg.offset (.freq 255) = some 0x7FC ∧ Reg.busyRead (.freq 255) = .any := by
  decide

theorem witness_ReservedSpace :
    (0x074 : Addr).toNat % 4 = 0 ∧ (0x3FC : Addr).toNat ≤ 0x3FC ∧ 0x800 ≤ (0x800 : Addr).toNat ∧
      0x010 ≤ (0x010 : Addr).toNat ∧ (0x05C : Addr).toNat ≤ 0x05C ∧ tTree.busy = false := by decide

theorem witness_RegisterMapIsExact :
    Reg.offset (.outCode 7) = some 0x05C ∧ (0x070 : Addr).toNat % 4 = 0 ∧ regAt 0x070 ≠ .reserved := by decide

theorem witness_StatusRegister : tTree.busy = false ∧ (withPending 4 tTree).busy = true := by decide

/-- A leaf, an internal node (the last one) and the first index not allocated. -/
theorem witness_NodeReadout :
    Inv tTree ∧ tTree.busy = false ∧
      ({ tTree with nodeSel := 4 } : State).nodeSel.toNat < tTree.nnode.toNat ∧
      nodeAt tTree.nodes 4 = some (.internal 7 1 3) ∧ nodeAt tTree.nodes 0 = some (.leaf 0x61 2) ∧
      tTree.nnode.toNat ≤ ({ tTree with nodeSel := 5 } : State).nodeSel.toNat := ⟨tree_inv, by decide⟩

theorem witness_SelectionRegisters :
    tSeeded.busy = false ∧ (withPending 3 tSeeded).busy = true ∧
      tSeeded.act[({ tSeeded with actSel := 2 } : State).actSel.toNat]? = some 2 ∧
      tSeeded.act.length ≤ ({ tSeeded with actSel := 3 } : State).actSel.toNat := by decide

theorem witness_FreqTable :
    Reg.offset (.freq 0) = some 0x400 ∧ Reg.offset (.freq 255) = some 0x7FC ∧ tTable.busy = false ∧
      (withPending 4 tTable).busy = true ∧ (1 : Sym) ≠ 0 ∧ ∃ t, exec .build tTable = .next t :=
  ⟨by decide, by decide, by decide, by decide, by decide, next_of_isSome (by decide +kernel)⟩

theorem witness_OutCodeWords :
    Inv tPulled ∧ tPulled.busy = false ∧ tPulled.extValid = true ∧ Reg.offset (.outCode 7) = some 0x05C :=
  ⟨pulled_inv, rfl, rfl, by decide⟩

theorem witness_ResultRegisters :
    (Inv tTree ∧ tTree.busy = false ∧ tTree.phase = .tree) ∧
    (Inv tSeeded ∧ tSeeded.busy = false ∧ tSeeded.phase ≠ .tree) :=
  ⟨⟨tree_inv, rfl, rfl⟩, seeded_inv, rfl, by decide⟩

theorem witness_ResetValues : Reg.offset .status = some 0x008 ∧ Reg.status ≠ .id := by decide

theorem witness_ResetLine :
    (let s := { withPending 4 tTree with inputs := [.rst true] }; s.inputs = .rst true :: []) ∧
    (let s : State := { State.reset with rst := true, inputs := [.engine] }; s.inputs = .engine :: [] ∧ s.rst = true) ∧
    (let s : State := { tHeld with inputs := [.rst false] }; Inv s ∧ s.inputs = .rst false :: [] ∧ s.rst = true) :=
  ⟨rfl, ⟨rfl, rfl⟩,
    ⟨⟨held_inv.builder.phase, held_inv.builder.size, held_inv.builder.leaves, held_inv.builder.shape,
        held_inv.builder.symbols, held_inv.builder.forest, held_inv.builder.order, held_inv.builder.sum⟩,
      held_inv.extractor, held_inv.error, fun _ => rfl⟩, rfl, rfl⟩

theorem witness_EncodeLoopReadsEveryTriple :
    (tTree.busy = false ∧ tTree.err = false ∧ tTree.phase = .tree ∧ tTree.rst = false ∧ Inv tTree) ∧
    (tEmpty.busy = false ∧ tEmpty.err = false ∧ tEmpty.phase = .empty) ∧
    (¬ fits tOver ∧ tOver.rst = false ∧ tOver.busy = false ∧ tOver.err = false) :=
  ⟨⟨rfl, rfl, rfl, rfl, tree_inv⟩, by decide, by decide +kernel⟩

end Sys2Proof.Tests
end

section
/-! PROOF. The register window as a host reads and writes it (10_state.md rules R21, R22, R37 to R39 and R41): the rules of an
aligned read and of a full write, the fields of the packed words, the bound on a code's length, and the four claims on top of them. -/

namespace Sys2Proof.Machine

open Sys2Proof

/-! ### Reads -/

/-- R65: an aligned read of an idle block returns the stored value of its register. -/
theorem readAnswer_idle {s : State} (hb : s.busy = false) {a : Addr} {r : Reg} (ha : aligned a = true)
    (hr : regAt a = r) : readAnswer a s = some (.read (readStored s r) .ok) := by
  rw [readAnswer_aligned ha, readData_idle hb, hr]

/-- R47: an aligned read of a register on the exact list returns the stored value, busy or not. -/
theorem readAnswer_exact {a : Addr} {r : Reg} (ha : aligned a = true) (hr : regAt a = r) (he : r.busyRead = .exact)
    (s : State) : readAnswer a s = some (.read (readStored s r) .ok) := by
  have hread : readReg s (Config.freeRead s.draws) r = readStored s r := by
    delta readReg
    split
    · rw [he]
    · rfl
  rw [readAnswer_aligned ha, readData, hr, hread]

/-! ### Writes -/

/-- R61, R64: an aligned write with all four byte enables is the dispatch, answered with OK. -/
theorem busWrite_full {a : Addr} (ha : aligned a = true) (w : Word) (s : State) :
    busWrite a 0xF w s = { writeReg a w s with answer := some (.write .ok) } := by
  delta busWrite
  simp [ha]

/-- R21: a write to ID is ignored. -/
theorem writeReg_id {a : Addr} (hr : regAt a = .id) (w : Word) (s : State) : writeReg a w s = s := by
  delta writeReg
  rw [hr]

/-- R22: a write to CTRL stores the two enables. -/
theorem writeReg_ctrl {a : Addr} (hr : regAt a = .ctrl) (w : Word) (s : State) :
    writeReg a w s = { s with ieDone := w.getLsbD 0, ieErr := w.getLsbD 1 } := by
  delta writeReg
  rw [hr]

/-- R38: a write to NODE_SEL of an idle block stores the low 9 bits. -/
theorem writeReg_nodeSel_idle {a : Addr} (hr : regAt a = .nodeSel) {s : State} (hb : s.busy = false) (w : Word) :
    writeReg a w s = { s with nodeSel := w.extractLsb' 0 9 } := by
  delta writeReg
  rw [hr, hb]
  rfl

/-- R41: a write to ACT_SEL of an idle block stores the low 9 bits. -/
theorem writeReg_actSel_idle {a : Addr} (hr : regAt a = .actSel) {s : State} (hb : s.busy = false) (w : Word) :
    writeReg a w s = { s with actSel := w.extractLsb' 0 9 } := by
  delta writeReg
  rw [hr, hb]
  rfl

/-- R64: a write to one of the registers a pending command protects is dropped with a BUSY error of its offset. -/
theorem writeReg_busy {a : Addr}
    (hr : regAt a = .cmd ∨ regAt a = .nodeSel ∨ regAt a = .actSel ∨ ∃ sym, regAt a = .freq sym)
    {s : State} (hb : s.busy = true) (w : Word) : writeReg a w s = raiseError .busy (a.setWidth 32) s := by
  rcases hr with hr | hr | hr | ⟨sym, hr⟩ <;> (delta writeReg; rw [hr, hb]; rfl)

/-- R64: a full write a pending command drops records BUSY with its offset, and answers OK. -/
theorem busWrite_busy {a : Addr} (ha : aligned a = true)
    (hr : regAt a = .cmd ∨ regAt a = .nodeSel ∨ regAt a = .actSel ∨ ∃ sym, regAt a = .freq sym)
    {s : State} (hb : s.busy = true) (w : Word) :
    busWrite a 0xF w s = { raiseError .busy (a.setWidth 32) s with answer := some (.write .ok) } := by
  rw [busWrite_full ha, writeReg_busy hr hb]

/-- R165: what recording an error leaves of the error record. -/
theorem raiseError_recorded (code : ErrCode) (info : Word) (s : State) :
    errorRecorded code info s (raiseError code info s) :=
  ⟨fun he => by simp [he], fun he => by simp [sameError, he]⟩

/-- Recording an error leaves the results alone. -/
@[simp] theorem raiseError_results (code : ErrCode) (info : Word) (s : State) :
    (raiseError code info s).results = s.results := by
  delta State.results
  simp

/-! ### Packed words -/

/-- The low `n` bits of a word, extended by zeros, are the word under the mask of `n` ones. -/
theorem setWidth_extractLsb'_low (n : Nat) (w : Word) :
    (w.extractLsb' 0 n).setWidth 32 = w &&& BitVec.ofNat 32 (2 ^ n - 1) := by
  apply BitVec.eq_of_getLsbD_eq
  intro i hi
  simp only [BitVec.getLsbD_setWidth, BitVec.getLsbD_extractLsb', BitVec.getLsbD_and, BitVec.getLsbD_ofNat,
    Nat.testBit_two_pow_sub_one, hi, decide_true, Bool.true_and, Nat.zero_add]
  exact Bool.and_comm ..

/-- R38, R41: the value a selection register shows of the word it was written with. -/
theorem low9_eq_and (w : Word) : (w.extractLsb' 0 9).setWidth 32 = w &&& 0x1FF := setWidth_extractLsb'_low 9 w

/-- R38: NODE_SEL of an idle block reads back the low 9 bits of a write. -/
theorem nodeSel_readback {s : State} (hb : s.busy = false) (w : Word) :
    readAnswer 0x060 (busWrite 0x060 0xF w s) = some (.read (w &&& 0x1FF) .ok) := by
  rw [busWrite_full (by decide), writeReg_nodeSel_idle (by decide) hb,
    readAnswer_exact (r := .nodeSel) (by decide) (by decide) rfl, ← low9_eq_and]
  rfl

/-- R41: ACT_SEL of an idle block reads back the low 9 bits of a write. -/
theorem actSel_readback {s : State} (hb : s.busy = false) (w : Word) :
    readAnswer 0x06C (busWrite 0x06C 0xF w s) = some (.read (w &&& 0x1FF) .ok) := by
  rw [busWrite_full (by decide), writeReg_actSel_idle (by decide) hb,
    readAnswer_exact (r := .actSel) (by decide) (by decide) rfl, ← low9_eq_and]
  rfl

/-- R22: CTRL's word for each of the four settings of its enables. -/
theorem ctrl_of_enables (s : State) (b : BitVec 2) :
    ({ s with ieDone := b.getLsbD 0, ieErr := b.getLsbD 1 } : State).ctrl = b.setWidth 32 := by
  have hword : ∀ b : BitVec 2,
      (0 : BitVec 30) ++ BitVec.ofBool (b.getLsbD 1) ++ BitVec.ofBool (b.getLsbD 0) = b.setWidth 32 := by decide
  exact hword b

/-- R22: CTRL shows bits 0 and 1 of the word it was written with. -/
theorem ctrl_of_write (s : State) (w : Word) :
    ({ s with ieDone := w.getLsbD 0, ieErr := w.getLsbD 1 } : State).ctrl = w &&& 3 := by
  have h := ctrl_of_enables s (w.extractLsb' 0 2)
  rw [setWidth_extractLsb'_low] at h
  simpa using h

/-- A bit above the low part of a packed word is a bit of the high part. -/
theorem getLsbD_append_high {v w i : Nat} (x : BitVec v) (y : BitVec w) (h : w ≤ i) :
    (x ++ y).getLsbD i = x.getLsbD (i - w) := by
  rw [BitVec.getLsbD_append, if_neg (by omega)]

/-- R39: NODE_INFO and NODE_COUNT where the selected index is allocated. -/
theorem nodeReadout_some {s : State} {n : Node} (h : nodeAt s.nodes s.nodeSel = some n) :
    s.nodeInfo = n.info ∧ s.nodeCount = n.count := by
  delta State.nodeInfo State.nodeCount
  rw [h]
  exact ⟨rfl, rfl⟩

/-- R39: NODE_INFO and NODE_COUNT where it is not. -/
theorem nodeReadout_none {s : State} (h : nodeAt s.nodes s.nodeSel = none) : s.nodeInfo = 0 ∧ s.nodeCount = 0 := by
  delta State.nodeInfo State.nodeCount
  rw [h]
  exact ⟨rfl, rfl⟩

/-- R39: the fields of a word in NODE_INFO's layout. -/
theorem nodeWord_fields (top : BitVec 6) (mid : BitVec 8) (hi lo : BitVec 9) :
    (top ++ mid ++ hi ++ lo).getLsbD 31 = top.getLsbD 5 ∧ (top ++ mid ++ hi ++ lo).getLsbD 30 = top.getLsbD 4 ∧
    (top ++ mid ++ hi ++ lo).extractLsb' 26 4 = top.extractLsb' 0 4 ∧
    (top ++ mid ++ hi ++ lo).extractLsb' 18 8 = mid ∧ (top ++ mid ++ hi ++ lo).extractLsb' 9 9 = hi ∧
    (top ++ mid ++ hi ++ lo).extractLsb' 0 9 = lo := by
  refine ⟨?_, ?_, ?_, ?_, ?_, BitVec.extractLsb'_append_eq_right⟩
  · iterate 3 rw [getLsbD_append_high _ _ (by decide)]
  · iterate 3 rw [getLsbD_append_high _ _ (by decide)]
  · iterate 3 rw [BitVec.extractLsb'_append_eq_of_le (by decide)]
  · iterate 2 rw [BitVec.extractLsb'_append_eq_of_le (by decide)]
    exact BitVec.extractLsb'_append_eq_right
  · rw [BitVec.extractLsb'_append_eq_of_le (by decide), BitVec.extractLsb'_append_eq_right]

/-- R39: NODE_INFO of a leaf. -/
theorem info_leaf (sym : Sym) (c : Word) :
    (Node.leaf sym c).info.getLsbD 31 = true ∧ (Node.leaf sym c).info.getLsbD 30 = false ∧
    (Node.leaf sym c).info.extractLsb' 26 4 = 0 ∧ (Node.leaf sym c).info.extractLsb' 18 8 = sym ∧
    (Node.leaf sym c).info.extractLsb' 9 9 = 0 ∧ (Node.leaf sym c).info.extractLsb' 0 9 = 0 :=
  nodeWord_fields (1#1 ++ 0#1 ++ 0#4) sym 0 0

/-- R39: NODE_INFO of an internal node. -/
theorem info_internal (c : Word) (l r : NodeIdx) :
    (Node.internal c l r).info.getLsbD 31 = true ∧ (Node.internal c l r).info.getLsbD 30 = true ∧
    (Node.internal c l r).info.extractLsb' 26 4 = 0 ∧ (Node.internal c l r).info.extractLsb' 18 8 = 0 ∧
    (Node.internal c l r).info.extractLsb' 9 9 = r ∧ (Node.internal c l r).info.extractLsb' 0 9 = l :=
  nodeWord_fields (1#1 ++ 1#1 ++ 0#4) 0 r l

/-- R41: the fields of a word in ACT_ENTRY's layout. -/
theorem actWord_fields (x : NodeIdx) :
    ((1 : BitVec 1) ++ (0 : BitVec 22) ++ x).getLsbD 31 = true ∧
    ((1 : BitVec 1) ++ (0 : BitVec 22) ++ x).extractLsb' 9 22 = 0 ∧
    ((1 : BitVec 1) ++ (0 : BitVec 22) ++ x).extractLsb' 0 9 = x := by
  refine ⟨?_, ?_, BitVec.extractLsb'_append_eq_right⟩
  · rw [getLsbD_append_high _ _ (by decide)]; rfl
  · rw [BitVec.extractLsb'_append_eq_of_le (by decide)]; rfl

/-- R41: ACT_ENTRY at a position of the Active Set. -/
theorem actEntry_some {s : State} {x : NodeIdx} (h : s.act[s.actSel.toNat]? = some x) :
    s.actEntry = (1 : BitVec 1) ++ (0 : BitVec 22) ++ x := by
  delta State.actEntry
  rw [h]

/-- R41: ACT_ENTRY past the end of the Active Set. -/
theorem actEntry_past {s : State} (h : s.act.length ≤ s.actSel.toNat) : s.actEntry = 0 := by
  delta State.actEntry
  rw [List.getElem?_eq_none h]

/-! ### The arena and the code register under the invariant -/

/-- R27, R118: under the invariant `nnode` is the number of records, with no wrap-around. -/
theorem nnode_toNat {s : State} (h : BuilderInv s) : s.nnode.toNat = s.nodes.length := by
  have hsize := h.size
  have hleaves : s.nleaf.toNat ≤ 256 := h.leaves
  change (BitVec.ofNat 10 s.nodes.length).toNat = s.nodes.length
  rw [BitVec.toNat_ofNat]
  omega

/-- R116: an allocated node is as the invariant says of its index. -/
theorem nodeOk_of_nodeAt {s : State} (h : BuilderInv s) {i : NodeIdx} {n : Node} (hn : nodeAt s.nodes i = some n) :
    nodeOk s.nodes s.nleaf.toNat i.toNat n := by
  obtain ⟨hi, rfl⟩ := nodeAt_eq_some_iff.mp hn
  exact h.shape i.toNat hi

/-- R146: below a node of index `n` a path grows by one bit for each internal node, and those have distinct indices from
`nleaf` to `n`. -/
theorem leavesAt_code_length {s : State} (h : BuilderInv s) {fuel : Nat} {n : NodeIdx} {path : List Bool}
    {q : List Triple} (hq : leavesAt s.nodes fuel n path = some q) :
    ∀ t ∈ q, t.code.length ≤ path.length + (n.toNat + 1 - s.nleaf.toNat) := by
  induction fuel generalizing n path q with
  | zero => simp [leavesAt] at hq
  | succ fuel ih =>
    obtain ⟨k, hk, ⟨sym, c, -, rfl⟩ | ⟨c, l, r, ql, qr, hn, hl, hr, rfl⟩⟩ := leavesAt_cases hq
    · simp
    · cases hk
      obtain ⟨hle, hlt, hrt, -⟩ := nodeOk_of_nodeAt h hn
      intro t ht
      rcases List.mem_append.mp ht with ht | ht
      · have := ih hl t ht
        simp only [List.length_append, List.length_singleton] at this
        omega
      · have := ih hr t ht
        simp only [List.length_append, List.length_singleton] at this
        omega

/-- R45: in phase TREE the root is the one active member and the last record. -/
theorem phaseOk_tree {s : State} (h : phaseOk s) (hp : s.phase = .tree) :
    s.act = [s.root] ∧ s.root.toNat + 1 = s.nodes.length := by
  delta phaseOk at h
  rw [hp] at h
  exact h

/-- R146: under the invariant every code of the leaf sequence has at most 255 bits. -/
theorem seq_code_length {s : State} (h : BuilderInv s) {q : List Triple} (hq : s.seq = some q) :
    ∀ t ∈ q, t.code.length ≤ Config.maxCode := by
  intro t ht
  have hsize := h.size
  have hleaves : s.nleaf.toNat ≤ 256 := h.leaves
  delta State.seq at hq
  split at hq
  · next hp =>
    obtain ⟨hact, hroot⟩ := phaseOk_tree h.phase hp
    have hlen := leavesAt_code_length h hq t ht
    simp only [hact, List.length_nil, List.length_singleton] at hsize hlen
    show t.code.length ≤ 255
    omega
  · cases hq; cases ht

/-- R142: a held triple is one of the leaf sequence, at the position before `ext_idx`. -/
theorem held_triple {s : State} (h : extractorInv s) (hv : s.extValid = true) :
    ∃ q k tr, s.seq = some q ∧ s.extIdx.toNat = k + 1 ∧ q[k]? = some tr ∧ latched tr s := by
  delta extractorInv at h
  split at h
  · obtain ⟨-, q, hq, ⟨hf, -⟩ | ⟨-, -, k, tr, hk, htr, hl⟩ | ⟨hf, -⟩⟩ := h
    · simp [hv] at hf
    · exact ⟨q, k, tr, hq, hk, htr, hl⟩
    · simp [hv] at hf
  · simp [hv] at h

/-- R100, R142: while no triple is held the output registers are 0. -/
theorem outZero_of_not_valid {s : State} (h : extractorInv s) (hv : s.extValid = false) : outZero s := by
  delta extractorInv at h
  split at h
  · obtain ⟨-, q, -, ⟨-, -, -, hz⟩ | ⟨ht, -⟩ | ⟨-, -, -, hz⟩⟩ := h
    · exact hz
    · simp [hv] at ht
    · exact hz
  · obtain ⟨-, -, -, hz⟩ := h
    exact hz

/-- R37: the register of a path that fits shows the path's bits, and no bit above it. -/
theorem codeReg_getLsbD_of_fits {bs : List Bool} (h : bs.length ≤ Config.maxCode) (j : Nat) :
    (codeReg bs).getLsbD j = bs.getD j false := by
  by_cases hj : j < 256
  · exact codeReg_getLsbD bs j hj
  · have hbs : bs.length ≤ j := by
      have : bs.length ≤ 255 := h
      omega
    rw [BitVec.getLsbD_of_ge _ _ (by omega), List.getD_eq_default _ _ hbs]

/-- R37, R142: while a triple is held, OUT_LEN is its path's length and bit `j` of the code register its path bit `j`. -/
theorem held_code {s : State} (h : Inv s) (hv : s.extValid = true) :
    ∃ q k tr, s.seq = some q ∧ s.extIdx.toNat = k + 1 ∧ q[k]? = some tr ∧
      s.outLen.toNat = tr.code.length ∧ ∀ j, s.outCode.getLsbD j = tr.code.getD j false := by
  obtain ⟨q, k, tr, hq, hk, htr, -, hlen, -, hcode⟩ := held_triple h.extractor hv
  have hfits := seq_code_length h.builder hq tr (List.mem_of_getElem? htr)
  refine ⟨q, k, tr, hq, hk, htr, ?_, fun j => ?_⟩
  · rw [hlen, BitVec.toNat_ofNat]
    exact Nat.mod_eq_of_lt (Nat.lt_succ_of_le hfits)
  · rw [hcode]
    exact codeReg_getLsbD_of_fits hfits j

/-- R37: every bit of the code register from OUT_LEN on is 0. -/
theorem outCode_above_outLen {s : State} (h : Inv s) {j : Nat} (hj : s.outLen.toNat ≤ j) :
    s.outCode.getLsbD j = false := by
  cases hv : s.extValid with
  | false =>
    obtain ⟨-, -, -, hcode⟩ := outZero_of_not_valid h.extractor hv
    simp [hcode]
  | true =>
    obtain ⟨q, k, tr, -, -, -, hlen, hbits⟩ := held_code h hv
    rw [hbits j, List.getD_eq_default _ _ (hlen ▸ hj)]

/-- R20: the register at the offset of OUT_CODEk. -/
theorem outCode_offset (k : BitVec 3) :
    aligned (0x040 + 4 * k.setWidth 12) = true ∧ regAt (0x040 + 4 * k.setWidth 12) = .outCode k := by
  revert k; decide

/-! ### The claims -/

/-- Settles O56: the words show the register, and the register is the held triple's path under the invariant, whose codes
fit in it. -/
theorem outCodeWords : Obligations.OutCodeWords := by
  intro s hinv hb
  refine ⟨fun k a hoff => ?_, held_code hinv, fun j => outCode_above_outLen hinv⟩
  cases hoff
  obtain ⟨ha, hr⟩ := outCode_offset k
  refine ⟨_, readAnswer_idle hb ha hr, fun b hlt => ?_⟩
  change (s.outCode.extractLsb' (32 * k.toNat) 32).getLsbD b = _
  simp only [BitVec.getLsbD_extractLsb', hlt, decide_true, Bool.true_and]

/-- Settles O53, by the selected index being allocated or not, and the selected node a leaf or internal. -/
theorem nodeReadout : Obligations.NodeReadout := by
  intro s hinv hb
  refine ⟨s.nodeInfo, s.nodeCount, readAnswer_idle hb (by decide) (r := .nodeInfo) (by decide),
    readAnswer_idle hb (by decide) (r := .nodeCount) (by decide), fun hge => ?_, fun hlt => ?_⟩
  · rw [nnode_toNat hinv.builder] at hge
    exact nodeReadout_none (List.getElem?_eq_none hge)
  · rw [nnode_toNat hinv.builder] at hlt
    have hn : nodeAt s.nodes s.nodeSel = some s.nodes[s.nodeSel.toNat] := List.getElem?_eq_getElem hlt
    obtain ⟨hinfo, hcount⟩ := nodeReadout_some hn
    refine ⟨_, hn, hcount, ?_⟩
    rw [hinfo]
    cases s.nodes[s.nodeSel.toNat] with
    | leaf sym c =>
      obtain ⟨hvalid, hkind, hzero, hfields⟩ := info_leaf sym c
      exact ⟨hvalid, hkind, hzero, fun _ _ h => by cases h; exact hfields, fun _ _ _ h => by cases h⟩
    | internal c l r =>
      obtain ⟨hvalid, hkind, hzero, hfields⟩ := info_internal c l r
      exact ⟨hvalid, hkind, hzero, fun _ _ h => (by cases h), fun _ _ _ h => by cases h; exact hfields⟩

/-- Settles O54: the idle writes and reads back, the dropped write of a busy block, and ACT_ENTRY by position. -/
theorem selectionRegisters : Obligations.SelectionRegisters := by
  intro s w
  refine ⟨fun hb => ⟨nodeSel_readback hb w, actSel_readback hb w⟩, fun hb a ha => ?_, fun hb => ?_⟩
  · have hdrop : busWrite a 0xF w s = { raiseError .busy (a.setWidth 32) s with answer := some (.write .ok) } := by
      rcases ha with rfl | rfl
      · exact busWrite_busy (by decide) (.inr (.inl (by decide))) hb w
      · exact busWrite_busy (by decide) (.inr (.inr (.inl (by decide)))) hb w
    exact ⟨_, hdrop, raiseError_recorded .busy (a.setWidth 32) s, by simp, by simp,
      raiseError_results .busy (a.setWidth 32) s, by simp [hb], by simp, by simp⟩
  · refine ⟨s.actEntry, readAnswer_idle hb (by decide) (r := .actEntry) (by decide), fun x hx => ?_, actEntry_past⟩
    rw [actEntry_some hx]
    exact actWord_fields x

/-- Settles O52: ID and CTRL are on the exact list, so they read the stored word busy or not. -/
theorem idAndCtrl : Obligations.IdAndCtrl := by
  intro s w
  have hid : busWrite 0x000 0xF w s = { s with answer := some (.write .ok) } := by
    rw [busWrite_full (by decide), writeReg_id (by decide)]
  have hctrl : busWrite 0x004 0xF w s =
      { s with ieDone := w.getLsbD 0, ieErr := w.getLsbD 1, answer := some (.write .ok) } := by
    rw [busWrite_full (by decide), writeReg_ctrl (by decide)]
  refine ⟨readAnswer_exact (r := .id) (by decide) (by decide) rfl s, hid, ?_, hctrl⟩
  rw [hctrl, readAnswer_exact (r := .ctrl) (by decide) (by decide) rfl, ← ctrl_of_write s w]
  rfl

end Sys2Proof.Machine
end

section
/-! PROOF. The host bus as transactions (20_memory.md rules R62 to R64): which accesses the block answers with ERR, which
offset each listed register stands at, what a write to each register does, and the two claims on top of them. -/

namespace Sys2Proof.Machine

open Sys2Proof

/-! ### Alignment and the register map -/

/-- R62: an offset is aligned when it is a multiple of 4. -/
theorem aligned_iff (a : Addr) : aligned a = true ↔ a.toNat % 4 = 0 := by
  simp [aligned, ← BitVec.toNat_inj]

/-- A bit field of an offset as a number. -/
theorem addrField_toNat (a : Addr) (start len : Nat) :
    (a.extractLsb' start len).toNat = a.toNat / 2 ^ start % 2 ^ len := by
  rw [BitVec.extractLsb'_toNat, Nat.shiftRight_eq_div_pow]

/-- R20: the offset of a FREQ entry as a number. -/
theorem freqOffset_toNat (sym : Sym) : (0x400 + 4 * sym.setWidth 12 : Addr).toNat = 0x400 + 4 * sym.toNat := by
  have hsym := sym.isLt
  simp
  omega

/-- R20: the offset of an OUT_CODE word as a number. -/
theorem outCodeOffset_toNat (k : BitVec 3) : (0x040 + 4 * k.setWidth 12 : Addr).toNat = 0x040 + 4 * k.toNat := by
  revert k; decide

/-- R20: the register at an offset of the FREQ table. -/
theorem regAt_freq {a : Addr} {sym : Sym} (h : a.toNat = 0x400 + 4 * sym.toNat) : regAt a = .freq sym := by
  have hsym := sym.isLt
  have htop : a.extractLsb' 10 2 = 1 := by
    apply BitVec.eq_of_toNat_eq
    rw [addrField_toNat, h]
    show (0x400 + 4 * sym.toNat) / 2 ^ 10 % 2 ^ 2 = 1
    omega
  have hentry : a.extractLsb' 2 8 = sym := by
    apply BitVec.eq_of_toNat_eq
    rw [addrField_toNat, h]
    omega
  delta regAt
  rw [if_pos htop, hentry]

/-- R20: an aligned offset with `[11:10] = 1` is that of the FREQ entry its bits `[9:2]` name. -/
theorem freqOffset_of_top {a : Addr} (ha : aligned a = true) (htop : a.extractLsb' 10 2 = 1) :
    0x400 + 4 * (a.extractLsb' 2 8).setWidth 12 = a := by
  have hmod := (aligned_iff a).mp ha
  have hdiv : a.toNat / 2 ^ 10 % 2 ^ 2 = 1 := by rw [← addrField_toNat, htop]; rfl
  have hlt := a.isLt
  apply BitVec.eq_of_toNat_eq
  rw [freqOffset_toNat, addrField_toNat]
  omega

/-- R20: an aligned offset with `[11:5] = 2` is that of the OUT_CODE word its bits `[4:2]` name. -/
theorem outCodeOffset_of_top {a : Addr} (ha : aligned a = true) (htop : a.extractLsb' 5 7 = 2) :
    0x040 + 4 * (a.extractLsb' 2 3).setWidth 12 = a := by
  have hmod := (aligned_iff a).mp ha
  have hdiv : a.toNat / 2 ^ 5 % 2 ^ 7 = 2 := by rw [← addrField_toNat, htop]; rfl
  have hlt := a.isLt
  apply BitVec.eq_of_toNat_eq
  rw [outCodeOffset_toNat, addrField_toNat]
  omega

/-- R20: one row of the map: where `off` is listed for `r`, testing for it first keeps the register found at its offset. -/
theorem offset_row {a off : Addr} {r other : Reg} (hrow : r.offset = some off)
    (h : other ≠ .reserved → other.offset = some a) :
    (if a = off then r else other) ≠ .reserved → (if a = off then r else other).offset = some a := by
  split
  · next heq => exact fun _ => heq ▸ hrow
  · exact h

/-- R20: the listed register found at an aligned offset stands at that offset. -/
theorem offset_regAt {a : Addr} (ha : aligned a = true) : regAt a ≠ .reserved → (regAt a).offset = some a := by
  delta regAt
  by_cases hfreq : a.extractLsb' 10 2 = 1
  · rw [if_pos hfreq]
    exact fun _ => congrArg some (freqOffset_of_top ha hfreq)
  by_cases hout : a.extractLsb' 5 7 = 2
  · rw [if_neg hfreq, if_pos hout]
    exact fun _ => congrArg some (outCodeOffset_of_top ha hout)
  rw [if_neg hfreq, if_neg hout]
  iterate 19 refine offset_row rfl ?_
  exact absurd rfl

/-- R20: an aligned offset at which a listed register is found is the one the map lists for it. -/
theorem eq_of_regAt {a off : Addr} {r : Reg} (ha : aligned a = true) (hoff : r.offset = some off) (hr : regAt a = r) :
    a = off := by
  subst hr
  have hlisted : regAt a ≠ .reserved := fun h => by rw [h] at hoff; cases hoff
  exact Option.some.inj ((offset_regAt ha hlisted).symm.trans hoff)

/-! ### What a write does to each register -/

/-- R64: a STATUS write is taken busy or not. -/
theorem writeReg_status {a : Addr} (hr : regAt a = .status) (w : Word) (s : State) :
    writeReg a w s = writeStatus w s := by
  delta writeReg
  rw [hr]

/-- R83: a CMD write to an idle block issues its word. -/
theorem writeReg_cmd_idle {a : Addr} (hr : regAt a = .cmd) {s : State} (hb : s.busy = false) (w : Word) :
    writeReg a w s = { s with busy := true, pending := w } := by
  delta writeReg
  rw [hr, hb]
  rfl

/-- R40: a FREQ write to an idle block stores the entry. -/
theorem writeReg_freq_idle {a : Addr} {sym : Sym} (hr : regAt a = .freq sym) {s : State} (hb : s.busy = false)
    (w : Word) : writeReg a w s = writeFreq sym w s := by
  delta writeReg
  rw [hr, hb]
  rfl

/-- R48, R64: a write to any register but the six the dispatch names is ignored. -/
theorem writeReg_ignored {a : Addr} (hctrl : regAt a ≠ .ctrl) (hstatus : regAt a ≠ .status) (hcmd : regAt a ≠ .cmd)
    (hnode : regAt a ≠ .nodeSel) (hact : regAt a ≠ .actSel) (hfreq : ∀ sym, regAt a ≠ .freq sym)
    (w : Word) (s : State) : writeReg a w s = s := by
  delta writeReg
  split
  · exact absurd ‹_› hctrl
  · exact absurd ‹_› hstatus
  · exact absurd ‹_› hcmd
  · exact absurd ‹_› hnode
  · exact absurd ‹_› hact
  · exact absurd ‹_› (hfreq _)
  all_goals rfl

/-! ### Accesses with no effect -/

/-- R62: a misaligned read answers 0 with ERR and changes nothing else. -/
theorem busRead_misaligned {a : Addr} (ha : ¬ aligned a = true) (s : State) :
    busRead a s = { s with answer := some (.read 0 .err) } := by
  delta busRead
  exact if_neg ha

/-- R62, R63: a write that is misaligned or lacks a byte enable answers ERR and changes nothing else. -/
theorem busWrite_dropped {a : Addr} {be : ByteEn} (h : ¬ (aligned a = true ∧ be = 0xF)) (w : Word) (s : State) :
    busWrite a be w s = { s with answer := some (.write .err) } := by
  delta busWrite
  exact if_neg (by simpa using h)

/-! ### The claims -/

/-- Settles O46: the answer is that of a full aligned write, and each clause is what the dispatch does at the register of its
offset; the last one, because the map lists each of the six writable registers at its own offset only. -/
theorem writeDispatch : Obligations.WriteDispatch := by
  intro s a w hmod
  have ha : aligned a = true := (aligned_iff a).mpr hmod
  refine ⟨writeReg a w s, busWrite_full ha w s, ?ctrl, ?status, ?cmdBusy, ?cmd, ?nodeBusy, ?node, ?actBusy, ?act,
    ?freqBusy, ?freq, ?other⟩
  case ctrl => rintro rfl; exact writeReg_ctrl (by decide) w s
  case status => rintro rfl; exact writeReg_status (by decide) w s
  case cmdBusy => rintro rfl hb; exact writeReg_busy (.inl (by decide)) hb w
  case cmd => rintro rfl hb; exact writeReg_cmd_idle (by decide) hb w
  case nodeBusy => rintro rfl hb; exact writeReg_busy (.inr (.inl (by decide))) hb w
  case node =>
    rintro rfl hb
    rw [writeReg_nodeSel_idle (by decide) hb, BitVec.setWidth_eq_extractLsb' (by decide)]
  case actBusy => rintro rfl hb; exact writeReg_busy (.inr (.inr (.inl (by decide)))) hb w
  case act =>
    rintro rfl hb
    rw [writeReg_actSel_idle (by decide) hb, BitVec.setWidth_eq_extractLsb' (by decide)]
  case freqBusy => exact fun sym hoff hb => writeReg_busy (.inr (.inr (.inr ⟨sym, regAt_freq hoff⟩))) hb w
  case freq => exact fun sym hoff hb => writeReg_freq_idle (regAt_freq hoff) hb w
  case other =>
    intro hctrl hstatus hcmd hnode hact hfreq
    exact writeReg_ignored (hctrl ∘ eq_of_regAt ha rfl) (hstatus ∘ eq_of_regAt ha rfl) (hcmd ∘ eq_of_regAt ha rfl)
      (hnode ∘ eq_of_regAt ha rfl) (hact ∘ eq_of_regAt ha rfl)
      (fun sym hr => hfreq sym (eq_of_regAt ha rfl hr ▸ freqOffset_toNat sym)) w s

/-- Settles O45: each access that is not an aligned one of all four bytes is dropped, and a read does not see its byte
enables. -/
theorem misalignedAndPartialAccesses : Obligations.MisalignedAndPartialAccesses := by
  intro s a be w
  refine ⟨fun hmod => ?_, fun hbe => ?_, rfl⟩
  · have ha : ¬ aligned a = true := mt (aligned_iff a).mp hmod
    exact ⟨busRead_misaligned ha s, busWrite_dropped (fun h => ha h.1) w s⟩
  · exact busWrite_dropped (fun h => hbe h.2) w s

end Sys2Proof.Machine
end

section
/-! PROOF. The command word (30_encoding.md rules R80 to R85): `decode` against `encode` and the two fields, what an illegal
word does from its CMD write to its completion, and the two claims on top of them. -/

namespace Sys2Proof.Machine

open Sys2Proof

/-! ### The two fields of a command word (R80) -/

@[simp] theorem zeroField_append (zero : BitVec 28) (op : BitVec 4) : zeroField (zero ++ op) = zero :=
  BitVec.extractLsb'_append_eq_left

@[simp] theorem opField_append (zero : BitVec 28) (op : BitVec 4) : opField (zero ++ op) = op :=
  BitVec.extractLsb'_append_eq_right

/-- R80: the two fields make up the whole word. -/
theorem zeroField_append_opField (w : Word) : zeroField w ++ opField w = w :=
  (BitVec.extractLsb'_append_extractLsb'_eq_extractLsb' rfl).trans BitVec.extractLsb'_eq_self

/-- R80: `OP` as a number. -/
theorem opField_toNat (w : Word) : (opField w).toNat = w.toNat % 16 :=
  BitVec.extractLsb'_toNat 0 4 w

/-- R80: `ZERO` as a number. -/
theorem zeroField_toNat (w : Word) : (zeroField w).toNat = w.toNat / 16 % 2 ^ 28 := by
  rw [zeroField, BitVec.extractLsb'_toNat, Nat.shiftRight_eq_div_pow]

/-! ### The decoder (R81, R82) -/

/-- R81: each command has its own `OP` value, the only one that selects it. -/
theorem instrOfOp_eq_ok_iff (op : BitVec 4) (i : Instr) : instrOfOp op = .ok i ↔ op = opOf i := by
  revert op
  cases i <;> decide

/-- R82: the `OP` values 0x7 to 0xF select no command. -/
theorem instrOfOp_reserved {op : BitVec 4} (h : 7 ≤ op.toNat) : instrOfOp op = .error .reservedOp := by
  revert op; decide

/-- R81: a word with `ZERO` clear is decoded from its `OP`. -/
theorem decode_zeroFieldClear {w : Word} (hzero : zeroField w = 0) : decode w = instrOfOp (opField w) :=
  if_pos hzero

/-- R82: a word with a bit of `ZERO` set is rejected for it, whatever `OP` is. -/
theorem decode_zeroFieldSet {w : Word} (hzero : zeroField w ≠ 0) : decode w = .error .zeroFieldSet :=
  if_neg hzero

/-- R82: a word with `ZERO` clear and a reserved `OP` is rejected for its `OP`. -/
theorem decode_reservedOp {w : Word} (hzero : zeroField w = 0) (hop : 7 ≤ (opField w).toNat) :
    decode w = .error .reservedOp := by
  rw [decode_zeroFieldClear hzero, instrOfOp_reserved hop]

/-- R80, R81: a command's word decodes to the command. -/
theorem decode_encode (i : Instr) : decode (encode i) = .ok i := by
  have hzero : zeroField (encode i) = 0 := zeroField_append 0 (opOf i)
  have hop : opField (encode i) = opOf i := opField_append 0 (opOf i)
  rw [decode_zeroFieldClear hzero, instrOfOp_eq_ok_iff, hop]

/-- R80, R81: a word that decodes to a command is that command's word. -/
theorem eq_encode_of_decode {w : Word} {i : Instr} (h : decode w = .ok i) : w = encode i := by
  by_cases hzero : zeroField w = 0
  · rw [decode_zeroFieldClear hzero, instrOfOp_eq_ok_iff] at h
    rw [← zeroField_append_opField w, hzero, h, encode]
  · rw [decode_zeroFieldSet hzero] at h
    cases h

/-- R82: both kinds of illegal word are rejected. -/
theorem decode_illegal {w : Word} (h : zeroField w ≠ 0 ∨ 7 ≤ (opField w).toNat) : ∃ r, decode w = .error r := by
  by_cases hzero : zeroField w = 0
  · exact ⟨_, decode_reservedOp hzero (h.resolve_left (not_not_intro hzero))⟩
  · exact ⟨_, decode_zeroFieldSet hzero⟩

/-- R81, R82: the words 7 to 15 are the reserved values of `OP` under a clear `ZERO`. -/
theorem fields_of_reserved {w : Word} (hlo : 7 ≤ w.toNat) (hhi : w.toNat ≤ 15) :
    zeroField w = 0 ∧ 7 ≤ (opField w).toNat := by
  constructor
  · apply BitVec.eq_of_toNat_eq
    rw [zeroField_toNat, Nat.div_eq_of_lt (Nat.lt_succ_of_le hhi)]
    rfl
  · rw [opField_toNat]
    omega

/-! ### Acceptance and completion (R83 to R85) -/

/-- R83: an idle block out of reset accepts whatever word is written to CMD. -/
theorem hostTurn_cmdWrite_idle {s : State} (hr : s.rst = false) (hb : s.busy = false) (w : Word) :
    hostTurn (.write 0x00C 0xF w) s = .next { s with busy := true, pending := w, answer := some (.write .ok) } := by
  have hwrite : busStep (.write 0x00C 0xF w) s = { issue w s with answer := some (.write .ok) } := cmdWrite_idle hb w
  rw [hostTurn, if_neg (by simp [hr]), hwrite, issue]

/-- R82, R85: the engine's turn with an illegal word pending records ILLEGAL_CMD and completes. -/
theorem engineTurn_illegal {s : State} {r : Reject} (hr : s.rst = false) (hb : s.busy = true)
    (hd : decode s.pending = .error r) : engineTurn s = .next (complete (raiseError .illegalCmd s.pending s)) := by
  delta engineTurn engineComplete execute
  rw [hr, hb, hd]
  rfl

/-! ### The claims -/

/-- Settles O2: the decoder inverts the encoder on exactly the command words, and the fields of 7 to 15 are reserved. -/
theorem opcodeMapIsExact : Obligations.OpcodeMapIsExact := by
  refine ⟨decode_encode, fun _ _ => eq_encode_of_decode, rfl, rfl, rfl, rfl, rfl, rfl, rfl,
    fun w hlo hhi => ?_⟩
  obtain ⟨hzero, hop⟩ := fields_of_reserved hlo hhi
  exact decode_reservedOp hzero hop

/-- Settles O3: the CMD write does not look at the word, and the completion of a rejected word is the record of the error. -/
theorem illegalWordsOnlyRecordAnError : Obligations.IllegalWordsOnlyRecordAnError := by
  intro w s hill hr
  obtain ⟨r, hd⟩ := decode_illegal hill
  refine ⟨⟨r, hd⟩, fun hb => hostTurn_cmdWrite_idle hr hb w, ?_⟩
  rintro hb rfl
  refine ⟨_, engineTurn_illegal hr hb hd, rfl, rfl, raiseError_recorded .illegalCmd s.pending s,
    raiseError_results .illegalCmd s.pending s, ?_⟩
  simp

end Sys2Proof.Machine
end

section
/-! PROOF. The tree builder (40_tree_builder.md rules R100 to R119): what the builder's invariant says of the arena,
what SEED leaves of a table, that a merge and every step keep the builder's invariant, how BUILD and the MERGE commands
run the same loop, and the claims on top of them. -/

namespace Sys2Proof.Machine

open Sys2Proof

/-! ### Counts of the arena -/

/-- The counts of the records, in index order. -/
def arenaCounts (nodes : List Node) : List Nat := nodes.map fun n => n.count.toNat

/-- Every index below `nnode` is allocated. -/
theorem nodeAt_of_lt {nodes : List Node} {i : NodeIdx} (h : i.toNat < nodes.length) :
    nodeAt nodes i = some nodes[i.toNat] :=
  List.getElem?_eq_getElem h

/-- The count of an allocated node. -/
theorem countNat_of_nodeAt {nodes : List Node} {i : NodeIdx} {n : Node} (h : nodeAt nodes i = some n) :
    countNat nodes i = n.count.toNat := by
  delta countNat
  rw [h]

/-- A count is an entry of the list of counts, 0 past its end. -/
theorem countNat_eq_getD (nodes : List Node) (i : NodeIdx) : countNat nodes i = (arenaCounts nodes).getD i.toNat 0 := by
  cases h : nodeAt nodes i with
  | some n =>
    obtain ⟨hi, rfl⟩ := nodeAt_eq_some_iff.mp h
    simp [countNat_of_nodeAt h, arenaCounts, hi]
  | none =>
    have hi : nodes.length ≤ i.toNat := List.getElem?_eq_none_iff.mp h
    delta countNat
    rw [h]
    simp [arenaCounts, hi]

/-- The counts at a list of indices that is some order of all indices sum to the counts of all records. -/
theorem sum_countNat_of_perm {nodes : List Node} {idxs : List NodeIdx}
    (h : (idxs.map BitVec.toNat).Perm (List.range nodes.length)) :
    (idxs.map (countNat nodes)).sum = (arenaCounts nodes).sum := by
  have hmap : idxs.map (countNat nodes) = (idxs.map BitVec.toNat).map ((arenaCounts nodes).getD · 0) := by
    simp [countNat_eq_getD]
  have hall : (List.range nodes.length).map ((arenaCounts nodes).getD · 0) = arenaCounts nodes := by
    refine List.ext_getElem (by simp [arenaCounts]) fun i h1 h2 => ?_
    simp [h2]
  rw [hmap, (h.map _).sum_eq, hall]

/-- R116: where each internal node's count is the sum of its children's, the children's counts are what the records'
counts are beyond the leaves'. -/
theorem sum_children_add_leaves {nodes all : List Node}
    (h : ∀ c l r, Node.internal c l r ∈ nodes → c.toNat = countNat all l + countNat all r) :
    ((nodes.flatMap Node.children).map (countNat all)).sum +
      ((nodes.filterMap Node.leafPair).map fun p => p.2.toNat).sum = (arenaCounts nodes).sum := by
  induction nodes with
  | nil => rfl
  | cons n ns ih =>
    have ih := ih fun c l r hm => h c l r (List.mem_cons_of_mem n hm)
    cases n with
    | leaf sym c =>
      simp only [List.flatMap_cons, Node.children, List.nil_append, List.filterMap_cons, Node.leafPair, arenaCounts,
        Node.count, List.map_cons, List.sum_cons] at ih ⊢
      omega
    | internal c l r =>
      have hc := h c l r List.mem_cons_self
      simp only [List.flatMap_cons, Node.children, List.cons_append, List.nil_append, List.filterMap_cons,
        Node.leafPair, arenaCounts, Node.count, List.map_cons, List.sum_cons] at ih ⊢
      omega

/-- R42: an internal node names two children, a leaf none. -/
theorem childRefs_length (nodes : List Node) :
    (childRefs nodes).length = 2 * (nodes.filter Node.isInternal).length := by
  induction nodes with
  | nil => rfl
  | cons n ns ih =>
    cases n with
    | leaf sym c => simpa [childRefs, Node.children, Node.isInternal, List.filter_cons] using ih
    | internal c l r =>
      simp only [childRefs, List.length_map, List.flatMap_cons, Node.children, List.length_append, List.length_cons,
        List.length_nil, List.filter_cons, Node.isInternal, if_true] at ih ⊢
      omega

/-! ### What the builder's invariant says -/

/-- R45: all a phase can say of the builder. -/
theorem phaseOk_cases {s : State} (h : phaseOk s) :
    ((s.phase = .none ∨ s.phase = .empty) ∧ s.act = [] ∧ s.nodes = []) ∨
    (s.phase = .seeded ∧ 2 ≤ s.act.length ∧ s.root = 0) ∨
    (s.phase = .tree ∧ s.act = [s.root] ∧ s.root.toNat + 1 = s.nodes.length) := by
  delta phaseOk at h
  cases hp : s.phase <;> rw [hp] at h
  case none =>
    obtain ⟨hact, hnodes, -⟩ := h
    exact .inl ⟨.inl rfl, hact, hnodes⟩
  case seeded => exact .inr (.inl ⟨rfl, h⟩)
  case tree => exact .inr (.inr ⟨rfl, h⟩)
  case empty =>
    obtain ⟨hact, hnodes, -⟩ := h
    exact .inl ⟨.inr rfl, hact, hnodes⟩

/-- R45: the phases NONE and EMPTY are right where there is nothing at all. -/
theorem phaseOk_of_no_tree {s : State} (hp : s.phase = .none ∨ s.phase = .empty) (hact : s.act = [])
    (hnodes : s.nodes = []) (hnleaf : s.nleaf = 0) (hroot : s.root = 0) (htotal : s.total = 0) : phaseOk s := by
  delta phaseOk
  rcases hp with hp | hp <;> rw [hp] <;> exact ⟨hact, hnodes, hnleaf, hroot, htotal⟩

/-- R45: the phase SEEDED is right where two or more members remain. -/
theorem phaseOk_of_seeded {s : State} (hp : s.phase = .seeded) (hact : 2 ≤ s.act.length) (hroot : s.root = 0) :
    phaseOk s := by
  delta phaseOk
  rw [hp]
  exact ⟨hact, hroot⟩

/-- R45: the phase TREE is right where the last record alone remains, as root. -/
theorem phaseOk_of_tree {s : State} (hp : s.phase = .tree) (hact : s.act = [s.root])
    (hroot : s.root.toNat + 1 = s.nodes.length) : phaseOk s := by
  delta phaseOk
  rw [hp]
  exact ⟨hact, hroot⟩

/-- R45: the phase is SEEDED exactly while the Active Set has two or more members. -/
theorem phase_seeded_iff {s : State} (h : BuilderInv s) : s.phase = .seeded ↔ 2 ≤ s.act.length := by
  rcases phaseOk_cases h.phase with ⟨hp | hp, hact, -⟩ | ⟨hp, hact, -⟩ | ⟨hp, hact, -⟩ <;> simp [hp, hact]

/-- R45: the phase is TREE exactly when the Active Set has one member. -/
theorem phase_tree_iff {s : State} (h : BuilderInv s) : s.phase = .tree ↔ s.act.length = 1 := by
  rcases phaseOk_cases h.phase with ⟨hp | hp, hact, -⟩ | ⟨hp, hact, -⟩ | ⟨hp, hact, -⟩
  · simp [hp, hact]
  · simp [hp, hact]
  · have hne : s.act.length ≠ 1 := by omega
    simp [hp, hne]
  · simp [hp, hact]

/-- R45: the root is 0 while merges remain. -/
theorem root_of_seeded {s : State} (h : BuilderInv s) (hp : s.phase = .seeded) : s.root = 0 := by
  rcases phaseOk_cases h.phase with ⟨hp' | hp', -⟩ | ⟨-, -, hroot⟩ | ⟨hp', -⟩
  · simp [hp] at hp'
  · simp [hp] at hp'
  · exact hroot
  · simp [hp] at hp'

/-- R45: without a member in the Active Set there is no record either. -/
theorem nodes_of_act_nil {s : State} (h : BuilderInv s) (ha : s.act = []) : s.nodes = [] := by
  rcases phaseOk_cases h.phase with ⟨-, -, hnodes⟩ | ⟨-, hact, -⟩ | ⟨-, hact, -⟩
  · exact hnodes
  · simp [ha] at hact
  · simp [ha] at hact

/-- R117, R43: every member of the Active Set is an allocated node. -/
theorem act_lt {s : State} (h : BuilderInv s) {x : NodeIdx} (hx : x ∈ s.act) : x.toNat < s.nodes.length := by
  have hmem := h.forest.mem_iff.mp (List.mem_append_right _ (List.mem_map_of_mem (f := BitVec.toNat) hx))
  simpa using hmem

/-- R118: the Active Set is no longer than the arena, so the arena holds `nleaf` records at least. -/
theorem nleaf_le_nodes {s : State} (h : BuilderInv s) : s.nleaf.toNat ≤ s.nodes.length := by
  have hlen := h.forest.length_eq
  have hsize := h.size
  simp only [List.length_append, List.length_map, List.length_range] at hlen
  omega

/-- R42, R118: the arena never holds more than 511 records, and has room for one more while the loop runs. -/
theorem nodes_length_le {s : State} (h : BuilderInv s) :
    s.nodes.length ≤ 511 ∧ (2 ≤ s.act.length → s.nodes.length < 511) := by
  have hsize := h.size
  have hleaves : s.nleaf.toNat ≤ 256 := h.leaves
  rcases hact : s.act with - | ⟨x, xs⟩
  · simp [nodes_of_act_nil h hact]
  · rw [hact, List.length_cons] at hsize
    simp only [List.length_cons]
    omega

/-- R118: `nleaf` is the number of leaves, and `len(act)` is that less the number of internal nodes. -/
theorem leaves_internals {s : State} (h : BuilderInv s) :
    s.nleaf.toNat = (s.nodes.filter fun n => !n.isInternal).length ∧
      s.nodes.length = s.nleaf.toNat + (s.nodes.filter Node.isInternal).length ∧
      s.act.length + (s.nodes.filter Node.isInternal).length = s.nleaf.toNat := by
  have hforest := h.forest.length_eq
  have hsize := h.size
  have hsplit := List.length_eq_length_filter_add (l := s.nodes) Node.isInternal
  simp only [List.length_append, List.length_map, List.length_range, childRefs_length] at hforest
  omega

/-- R115, R119: the leaves' counts sum to what the Active Set's do: the children's counts with either make up all
counts. -/
theorem activeTotal_eq_leaves {s : State} (h : BuilderInv s) :
    ((s.nodes.filterMap Node.leafPair).map fun p => p.2.toNat).sum = activeTotal s := by
  have hall := sum_countNat_of_perm (nodes := s.nodes) (idxs := s.nodes.flatMap Node.children ++ s.act)
    (by simpa [childRefs] using h.forest)
  have hchildren := sum_children_add_leaves (nodes := s.nodes) (all := s.nodes) fun c l r hm => by
    obtain ⟨i, hi, hn⟩ := List.getElem_of_mem hm
    have hok := h.shape i hi
    rw [hn] at hok
    obtain ⟨-, -, -, hc⟩ := hok
    exact hc
  rw [List.map_append, List.sum_append] at hall
  change _ + activeTotal s = _ at hall
  omega

/-- R117: no node is named as a child twice. -/
theorem childRefs_nodup {s : State} (h : BuilderInv s) : (childRefs s.nodes).Nodup :=
  (h.forest.nodup_iff.mpr List.nodup_range).sublist (List.sublist_append_left _ _)

/-- R117: an internal node's two children differ. -/
theorem children_ne {s : State} (h : BuilderInv s) {i : NodeIdx} {c : Word} {l r : NodeIdx}
    (hn : nodeAt s.nodes i = some (.internal c l r)) : l ≠ r := by
  obtain ⟨hi, hn⟩ := nodeAt_eq_some_iff.mp hn
  have hmem : Node.internal c l r ∈ s.nodes := hn ▸ List.getElem_mem hi
  have hsub : List.Sublist [l.toNat, r.toNat] (childRefs s.nodes) :=
    ((List.singleton_sublist.mpr hmem).flatMap Node.children).map BitVec.toNat
  have hne := (childRefs_nodup h).sublist hsub
  rintro rfl
  simp at hne

/-- R117: in phase TREE each record but the root is a child once, and the root never. -/
theorem childRefs_count {s : State} (h : BuilderInv s) (hp : s.phase = .tree) {i : Nat} (hi : i < s.nodes.length) :
    (childRefs s.nodes).count i = if i = s.root.toNat then 0 else 1 := by
  obtain ⟨hact, -⟩ := phaseOk_tree h.phase hp
  have hone : (List.range s.nodes.length).count i = 1 :=
    List.count_eq_one_of_mem List.nodup_range (List.mem_range.mpr hi)
  rw [← h.forest.count_eq i, hact, List.count_append] at hone
  simp only [List.map_cons, List.map_nil, List.count_singleton, beq_iff_eq] at hone
  split at hone <;> split <;> omega

/-- R105, R117: two leaves of one symbol are one leaf. -/
theorem leaf_unique {s : State} (h : BuilderInv s) {i j : NodeIdx} {sym : Sym} {c d : Word}
    (hi : nodeAt s.nodes i = some (.leaf sym c)) (hj : nodeAt s.nodes j = some (.leaf sym d)) : i = j := by
  obtain ⟨hi, hni⟩ := nodeAt_eq_some_iff.mp hi
  obtain ⟨hj, hnj⟩ := nodeAt_eq_some_iff.mp hj
  have hlt := h.symbols
  rw [List.pairwise_map, List.pairwise_filterMap, List.pairwise_iff_getElem] at hlt
  rcases Nat.lt_trichotomy i.toNat j.toNat with hij | hij | hij
  · exact absurd (hlt _ _ hi hj hij sym (by rw [hni]; rfl) sym (by rw [hnj]; rfl)) (Nat.lt_irrefl _)
  · exact BitVec.eq_of_toNat_eq hij
  · exact absurd (hlt _ _ hj hi hij sym (by rw [hnj]; rfl) sym (by rw [hni]; rfl)) (Nat.lt_irrefl _)

/-- R116: the two children of an internal node are allocated below it, and their counts sum exactly to its own. -/
theorem children_allocated {s : State} (h : BuilderInv s) {i : NodeIdx} {c : Word} {l r : NodeIdx}
    (hn : nodeAt s.nodes i = some (.internal c l r)) :
    ∃ nl nr, nodeAt s.nodes l = some nl ∧ nodeAt s.nodes r = some nr ∧ l.toNat < i.toNat ∧ r.toNat < i.toNat ∧
      c.toNat = nl.count.toNat + nr.count.toNat := by
  obtain ⟨hi, -⟩ := nodeAt_eq_some_iff.mp hn
  obtain ⟨-, hl, hr, hc⟩ := nodeOk_of_nodeAt h hn
  have hnl : nodeAt s.nodes l = some s.nodes[l.toNat] := nodeAt_of_lt (by omega)
  have hnr : nodeAt s.nodes r = some s.nodes[r.toNat] := nodeAt_of_lt (by omega)
  rw [countNat_of_nodeAt hnl, countNat_of_nodeAt hnr] at hc
  exact ⟨_, _, hnl, hnr, hl, hr, hc⟩

/-- R105: a leaf's count is at least 1. -/
theorem leaf_count_pos {s : State} (h : BuilderInv s) {i : NodeIdx} {sym : Sym} {c : Word}
    (hn : nodeAt s.nodes i = some (.leaf sym c)) : 1 ≤ c.toNat := by
  obtain ⟨-, hc⟩ := nodeOk_of_nodeAt h hn
  exact Nat.one_le_iff_ne_zero.mpr fun h0 => hc (BitVec.eq_of_toNat_eq h0)

/-- R116: no allocated node has the count 0, by induction on the index: children lie below their parent. -/
theorem count_pos {s : State} (h : BuilderInv s) (k : Nat) {i : NodeIdx} {n : Node} (hk : i.toNat < k)
    (hn : nodeAt s.nodes i = some n) : 1 ≤ n.count.toNat := by
  induction k generalizing i n with
  | zero => omega
  | succ k ih =>
    cases n with
    | leaf sym c => exact leaf_count_pos h hn
    | internal c l r =>
      obtain ⟨nl, nr, hnl, hnr, hl, hr, hc⟩ := children_allocated h hn
      have := ih (by omega) hnl
      change 1 ≤ c.toNat
      omega

/-- R119: in phase TREE the root's count is the total, which the one member of the Active Set has. -/
theorem root_count {s : State} (h : BuilderInv s) (hp : s.phase = .tree) :
    ∃ n, nodeAt s.nodes s.root = some n ∧ n.count = s.total := by
  obtain ⟨hact, hroot⟩ := phaseOk_tree h.phase hp
  have hn : nodeAt s.nodes s.root = some s.nodes[s.root.toNat] := nodeAt_of_lt (by omega)
  have hsum := h.sum
  rw [activeTotal, hact, List.map_singleton, List.sum_singleton, countNat_of_nodeAt hn] at hsum
  exact ⟨_, hn, BitVec.eq_of_toNat_eq hsum⟩

/-! ### The table as SEED reads it (R103 to R107) -/

/-- R106: the accumulator adds exactly while the sum fits in its 40 bits. -/
theorem foldl_sum_toNat (cs : List Word) (acc : Sum40) (h : acc.toNat + (cs.map BitVec.toNat).sum < 2 ^ 40) :
    (cs.foldl (fun sum c => sum + c.setWidth 40) acc).toNat = acc.toNat + (cs.map BitVec.toNat).sum := by
  induction cs generalizing acc with
  | nil => simp
  | cons c cs ih =>
    rw [List.map_cons, List.sum_cons] at h ⊢
    have hadd : (acc + c.setWidth 40).toNat = acc.toNat + c.toNat := by
      simp only [BitVec.toNat_add, BitVec.toNat_setWidth]
      omega
    rw [List.foldl_cons, ih _ (by omega), hadd]
    omega

/-- R106: 256 entries of 32 bits sum to less than 2^40. -/
theorem freqTotal_lt (freq : Vector Word 256) : freqTotal freq < 2 ^ 40 := by
  have hle := List.sum_le_card_nsmul (freq.toList.map BitVec.toNat) (2 ^ 32 - 1) fun x hx => by
    obtain ⟨c, -, rfl⟩ := List.mem_map.mp hx
    have := c.isLt
    omega
  simp only [List.length_map, Vector.length_toList, smul_eq_mul] at hle
  change (freq.toList.map BitVec.toNat).sum < _
  omega

/-- R106: the sum of the table is formed exactly. -/
theorem freqSum_toNat (freq : Vector Word 256) : (freqSum freq).toNat = freqTotal freq := by
  have h := foldl_sum_toNat freq.toList 0 (by simpa [freqTotal] using freqTotal_lt freq)
  simpa [freqSum, freqTotal] using h

/-- R106: the overflow check fires exactly on a table that does not fit. -/
theorem maxTotal_lt_iff (s : State) : Config.maxTotal < freqSum s.freq ↔ ¬ fits s := by
  rw [BitVec.lt_def, freqSum_toNat, Nat.not_le]
  rfl

/-- R103: `SeedBody` of a table that fits seeds it, whichever command runs it. -/
theorem seedBody_of_fits {s : State} (h : fits s) (w : Word) : seedBody w s = seedTable (seedClear s) :=
  if_neg fun hlt => (maxTotal_lt_iff s).mp hlt h

/-- R106: `SeedBody` of a table that does not fit records OVERFLOW over the cleared builder. -/
theorem seedBody_of_overflow {s : State} (h : ¬ fits s) (w : Word) :
    seedBody w s = raiseError .overflow w (seedClear s) :=
  if_pos ((maxTotal_lt_iff s).mpr h)

/-- R105: the leaves of a list of counts, by the positions of its nonzero counts. -/
theorem leavesFrom_eq_map (k : Nat) (cs : List Word) :
    leavesFrom k cs =
      ((cs.zipIdx k).filter fun p => p.1 ≠ 0).map fun p => Node.leaf (BitVec.ofNat 8 p.2) p.1 := by
  induction cs generalizing k with
  | nil => rfl
  | cons c cs ih =>
    rw [leavesFrom, ih (k + 1), List.zipIdx_cons, List.filter_cons]
    split
    · next hc => rw [if_neg (by simpa using hc)]
    · next hc => rw [if_pos (by simpa using hc), List.map_cons]

/-- R105: the seeded leaves are those of the present symbols, in order, with the counts FREQ holds. -/
theorem seedLeaves_eq (s : State) :
    seedLeaves s.freq = (presentSyms s).map fun sym => Node.leaf sym (readFreq s sym) := by
  rw [seedLeaves, leavesFrom_eq_map, presentSyms, List.map_map]
  refine List.map_congr_left fun p hp => ?_
  obtain ⟨hlt, hval⟩ := List.mem_zipIdx' (List.mem_of_mem_filter hp)
  have hidx : (BitVec.ofNat 8 p.2).toNat = p.2 := Nat.mod_eq_of_lt (by simpa using hlt)
  simp [readFreq, hidx, hval]

/-- R105: as many leaves as present symbols. -/
theorem seedLeaves_length (s : State) : (seedLeaves s.freq).length = (presentSyms s).length := by
  rw [seedLeaves_eq, List.length_map]

/-- R105: the present symbols ascend. -/
theorem presentSyms_ascending (s : State) : ((presentSyms s).map BitVec.toNat).Pairwise (· < ·) := by
  have hpos : (s.freq.toList.zipIdx.map Prod.snd).Pairwise (· < ·) := by
    rw [List.zipIdx_map_snd]
    exact List.pairwise_lt_range'
  have hsub := ((List.pairwise_map.mp hpos).filter fun p => decide (p.1 ≠ 0))
  rw [presentSyms, List.map_map, List.pairwise_map]
  refine hsub.imp_of_mem fun {p q} hp hq hlt => ?_
  obtain ⟨hpos_p, -⟩ := List.mem_zipIdx' (List.mem_of_mem_filter hp)
  obtain ⟨hpos_q, -⟩ := List.mem_zipIdx' (List.mem_of_mem_filter hq)
  simp only [Vector.length_toList] at hpos_p hpos_q
  simp only [Function.comp_apply, BitVec.toNat_ofNat]
  omega

/-- R105: the seeded Active Set is `[0, 1, ..., n-1]`; its indices fit in 9 bits. -/
theorem seedAct_toNat {n : Nat} (h : n ≤ 256) : (seedAct n).map BitVec.toNat = List.range n := by
  rw [seedAct, List.map_map]
  refine (List.map_congr_left fun i hi => ?_).trans (List.map_id _)
  have := List.mem_range.mp hi
  simp only [Function.comp_apply, BitVec.toNat_ofNat, id]
  omega

/-- R105: absent symbols count 0, so the leaves' counts sum to what all counts do. -/
theorem leavesFrom_counts_sum (k : Nat) (cs : List Word) :
    (arenaCounts (leavesFrom k cs)).sum = (cs.map BitVec.toNat).sum := by
  induction cs generalizing k with
  | nil => rfl
  | cons c cs ih =>
    have ih := ih (k + 1)
    rw [leavesFrom]
    split
    · next hc => simp [hc, ih]
    · simp only [arenaCounts, Node.count, List.map_cons, List.sum_cons] at ih ⊢
      omega

/-- R105, R119: the seeded leaves' counts sum to the table's total. -/
theorem seedLeaves_counts_sum (freq : Vector Word 256) : (arenaCounts (seedLeaves freq)).sum = freqTotal freq :=
  leavesFrom_counts_sum 0 freq.toList

/-- R103, R106: the 32 bits kept of a sum that fits are all of it. -/
theorem seedTable_total_toNat {s : State} (h : fits s) : (seedTable (seedClear s)).total.toNat = freqTotal s.freq := by
  change ((freqSum s.freq).setWidth 32).toNat = _
  rw [BitVec.toNat_setWidth, freqSum_toNat]
  omega

/-- R26: 256 leaves fit in `nleaf`. -/
theorem seedTable_nleaf_toNat (s : State) : (seedTable (seedClear s)).nleaf.toNat = (seedLeaves s.freq).length := by
  have hle := seedLeaves_length_le s.freq
  change (BitVec.ofNat 9 (seedLeaves s.freq).length).toNat = _
  rw [BitVec.toNat_ofNat]
  omega

/-- R45, R107: the phase after seeding is the one its number of leaves makes right. -/
theorem seedTable_phaseOk {s : State} (h : fits s) : phaseOk (seedTable (seedClear s)) := by
  rcases hleaves : seedLeaves s.freq with - | ⟨n, - | ⟨m, rest⟩⟩
  · have htotal := seedTable_total_toNat h
    rw [← seedLeaves_counts_sum, hleaves] at htotal
    exact phaseOk_of_no_tree (.inr (by simp [hleaves, phaseAfterSeed])) (by simp [hleaves, seedAct]) (by simp [hleaves])
      (by simp [hleaves]) (by simp) (BitVec.eq_of_toNat_eq htotal)
  · exact phaseOk_of_tree (by simp [hleaves, phaseAfterSeed]) (by simp [hleaves, seedAct]) (by simp [hleaves])
  · exact phaseOk_of_seeded (by simp [hleaves, phaseAfterSeed]) (by simp [hleaves]) (by simp)

/-- R105: the seeded records are leaves with nonzero counts. -/
theorem mem_seedLeaves {freq : Vector Word 256} {n : Node} (h : n ∈ seedLeaves freq) :
    ∃ sym c, n = .leaf sym c ∧ c ≠ 0 := by
  rw [seedLeaves, leavesFrom_eq_map] at h
  obtain ⟨p, hp, rfl⟩ := List.mem_map.mp h
  exact ⟨_, _, rfl, by simpa using (List.mem_filter.mp hp).2⟩

/-- R42: leaves name no children. -/
theorem childRefs_seedLeaves (freq : Vector Word 256) : childRefs (seedLeaves freq) = [] := by
  rw [childRefs, List.map_eq_nil_iff, List.flatMap_eq_nil_iff]
  intro n hn
  obtain ⟨sym, c, rfl, -⟩ := mem_seedLeaves hn
  rfl

/-- R105: the seeded leaves' symbols are the present ones. -/
theorem leafSyms_seedLeaves (s : State) : (seedLeaves s.freq).filterMap Node.leafSym = presentSyms s := by
  rw [seedLeaves_eq, List.filterMap_map]
  exact List.filterMap_some

/-- R105: every leaf is a member of the seeded Active Set, in index order. -/
theorem seedTable_act_toNat (s : State) :
    (seedTable (seedClear s)).act.map BitVec.toNat = List.range (seedTable (seedClear s)).nodes.length :=
  seedAct_toNat (seedLeaves_length_le s.freq)

/-- R105, R115 to R119: a seeded table meets the builder's invariant. -/
theorem seedTable_builder {s : State} (h : fits s) : BuilderInv (seedTable (seedClear s)) where
  phase := seedTable_phaseOk h
  size := by
    rw [seedTable_nleaf_toNat]
    simp [two_mul]
  leaves := by
    rw [seedTable_nleaf_toNat]
    exact seedLeaves_length_le s.freq
  shape := fun i hi => by
    obtain ⟨sym, c, hn, hc⟩ := mem_seedLeaves (List.getElem_mem hi)
    rw [hn, seedTable_nleaf_toNat]
    exact ⟨hi, hc⟩
  symbols := by
    rw [seedTable_nodes, seedClear_freq, leafSyms_seedLeaves]
    exact presentSyms_ascending s
  forest := by
    rw [seedTable_act_toNat, seedTable_nodes, childRefs_seedLeaves]
    exact .refl _
  order := by
    rw [seedTable_act_toNat]
    exact List.pairwise_lt_range
  sum := calc
    activeTotal (seedTable (seedClear s))
      = (arenaCounts (seedLeaves s.freq)).sum := sum_countNat_of_perm (.of_eq (seedTable_act_toNat s))
    _ = freqTotal s.freq := seedLeaves_counts_sum s.freq
    _ = (seedTable (seedClear s)).total.toNat := (seedTable_total_toNat h).symm

/-- R45, R106: the cleared builder of an overflow meets the invariant. -/
theorem seedClear_builder (s : State) : BuilderInv (seedClear s) where
  phase := phaseOk_of_no_tree (.inl rfl) rfl rfl rfl rfl rfl
  size := rfl
  leaves := Nat.zero_le _
  shape := fun i hi => absurd hi (Nat.not_lt_zero i)
  symbols := .nil
  forest := .nil
  order := .nil
  sum := rfl

/-- R102: a table of zeros fits. -/
theorem clearFreqTable_fits (s : State) : fits (clearFreqTable s) := by
  rw [fits, freqTotal, clearFreqTable_freq, Vector.toList_replicate, List.map_replicate, List.sum_replicate]
  exact Nat.zero_le _

/-- R105: counts of 0 make no leaf. -/
theorem leavesFrom_replicate_zero (k n : Nat) : leavesFrom k (List.replicate n 0) = [] := by
  induction n generalizing k with
  | zero => rfl
  | succ n ih => rw [List.replicate_succ, leavesFrom, if_pos rfl, ih]

/-- R102, R105: a table of zeros seeds no leaf. -/
theorem seedLeaves_replicate_zero : seedLeaves (Vector.replicate 256 0) = [] := by
  rw [seedLeaves, Vector.toList_replicate, leavesFrom_replicate_zero]

/-! ### One merge (R109, R110) -/

/-- R131: a nonempty Active Set of allocated nodes has a selection. -/
theorem selectRemove_exists {nodes : List Node} {act : List NodeIdx} (hne : act ≠ [])
    (halloc : ∀ x ∈ act, x.toNat < nodes.length) : ∃ x rest, selectRemove nodes act = some (x, rest) := by
  obtain ⟨cs, hcs⟩ := countsOf_isSome (nodes := nodes) (act := act) fun x hx =>
    Option.isSome_iff_exists.mpr ⟨_, nodeAt_of_lt (halloc x hx)⟩
  obtain ⟨hlen, -⟩ := countsOf_cases hcs
  obtain ⟨c, ds, rfl⟩ := List.exists_cons_of_length_pos (hlen ▸ List.length_pos_iff.mpr hne)
  have hsel : selectPos (c :: ds) = some (firstPos (minCount c ds) (c :: ds)) := rfl
  obtain ⟨m, hm, -⟩ := selectPos_cases hsel
  obtain ⟨hp, -⟩ := List.getElem?_eq_some_iff.mp hm
  have hx := List.getElem?_eq_getElem (l := act) (hlen ▸ hp)
  delta selectRemove
  rw [hcs]
  dsimp only
  rw [hsel]
  dsimp only
  rw [hx]
  exact ⟨_, _, rfl⟩

/-- A selection leaves the other members in their order. -/
theorem selectRemove_sublist {nodes : List Node} {act rest : List NodeIdx} {x : NodeIdx}
    (h : selectRemove nodes act = some (x, rest)) : rest.Sublist act := by
  obtain ⟨_, p, -, -, -, rfl⟩ := selectRemove_cases h
  exact List.eraseIdx_sublist act p

/-- R109: MergeOnce from its two selections. -/
theorem mergeOnce_of_selections {s : State} {a b : NodeIdx} {act1 act2 : List NodeIdx} {na nb : Node}
    (hroom : s.nodes.length < 511) (h1 : selectRemove s.nodes s.act = some (a, act1))
    (h2 : selectRemove s.nodes act1 = some (b, act2)) (ha : nodeAt s.nodes a = some na)
    (hb : nodeAt s.nodes b = some nb) : mergeOnce s = some (joinNodes a b na.count nb.count act2 s) := by
  delta mergeOnce
  rw [if_neg (Nat.not_le.mpr hroom), h1]
  dsimp only
  rw [h2]
  dsimp only
  rw [ha, hb]

/-- R110, R118: while two or more members remain a merge is within its precondition. -/
theorem mergeOnce_exists {s : State} (h : BuilderInv s) (hact : 2 ≤ s.act.length) : ∃ t, mergeOnce s = some t := by
  obtain ⟨a, act1, h1⟩ := selectRemove_exists (List.length_pos_iff.mp (by omega)) fun x => act_lt h
  have hlen := selectRemove_length h1
  have hsub := selectRemove_sublist h1
  obtain ⟨b, act2, h2⟩ := selectRemove_exists (List.length_pos_iff.mp (by omega)) fun x hx => act_lt h (hsub.mem hx)
  have ha : a ∈ s.act := (selectRemove_perm h1).mem_iff.mpr List.mem_cons_self
  have hb : b ∈ s.act := hsub.mem ((selectRemove_perm h2).mem_iff.mpr List.mem_cons_self)
  exact ⟨_, mergeOnce_of_selections ((nodes_length_le h).2 hact) h1 h2 (nodeAt_of_lt (act_lt h ha))
    (nodeAt_of_lt (act_lt h hb))⟩

/-- Appending a record does not change the counts below `nnode`. -/
theorem countNat_append {nodes : List Node} {i : NodeIdx} (k : Node) (h : i.toNat < nodes.length) :
    countNat (nodes ++ [k]) i = countNat nodes i := by
  have hn := nodeAt_of_lt h
  rw [countNat_of_nodeAt hn, countNat_of_nodeAt (nodeAt_append hn)]

/-- Appending a record keeps what the invariant says of the earlier ones: they refer to earlier ones only. -/
theorem nodeOk_append {nodes : List Node} {nleaf i : Nat} {n : Node} (k : Node) (hi : i < nodes.length)
    (h : nodeOk nodes nleaf i n) : nodeOk (nodes ++ [k]) nleaf i n := by
  cases n with
  | leaf sym c => exact h
  | internal c l r =>
    obtain ⟨hle, hl, hr, hc⟩ := h
    exact ⟨hle, hl, hr, by rw [countNat_append k (by omega), countNat_append k (by omega), hc]⟩

/-- R42: what a new record over two nodes adds to the child references. -/
theorem childRefs_append_internal (nodes : List Node) (c : Word) (a b : NodeIdx) :
    childRefs (nodes ++ [.internal c a b]) = childRefs nodes ++ [a.toNat, b.toNat] := by
  simp [childRefs, Node.children]

/-- R109: two members of the Active Set with their records, and the other members in their order. -/
structure Picked (s : State) (a b : NodeIdx) (act2 : List NodeIdx) (na nb : Node) : Prop where
  perm : s.act.Perm (a :: b :: act2)
  rest : act2.Sublist s.act
  left : nodeAt s.nodes a = some na
  right : nodeAt s.nodes b = some nb

/-- R131, R133: the two selections of a merge pick two members. -/
theorem picked_of_selections {s : State} {a b : NodeIdx} {act1 act2 : List NodeIdx} {na nb : Node}
    (h1 : selectRemove s.nodes s.act = some (a, act1)) (h2 : selectRemove s.nodes act1 = some (b, act2))
    (ha : nodeAt s.nodes a = some na) (hb : nodeAt s.nodes b = some nb) : Picked s a b act2 na nb where
  perm := (selectRemove_perm h1).trans ((selectRemove_perm h2).cons a)
  rest := (selectRemove_sublist h2).trans (selectRemove_sublist h1)
  left := ha
  right := hb

section
variable {s : State} {a b : NodeIdx} {act2 : List NodeIdx} {na nb : Node}

/-- R110: picking two leaves two fewer. -/
theorem Picked.act_length (h : Picked s a b act2 na nb) : s.act.length = act2.length + 2 := h.perm.length_eq

/-- R115: the Active Set's counts are the two picked ones and the others'. -/
theorem Picked.activeTotal_eq (h : Picked s a b act2 na nb) :
    activeTotal s = na.count.toNat + nb.count.toNat + (act2.map (countNat s.nodes)).sum := by
  have hsum := (h.perm.map (countNat s.nodes)).sum_eq
  rw [List.map_cons, List.map_cons, List.sum_cons, List.sum_cons, countNat_of_nodeAt h.left,
    countNat_of_nodeAt h.right] at hsum
  exact hsum.trans (Nat.add_assoc ..).symm

/-- R109, R116: the new record's count is exact, for the Active Set's counts sum to the 32-bit `total`. -/
theorem join_count_toNat (hinv : BuilderInv s) (h : Picked s a b act2 na nb) :
    (na.count + nb.count).toNat = na.count.toNat + nb.count.toNat := by
  have hsum := h.activeTotal_eq
  have htotal := hinv.sum
  have hlt := s.total.isLt
  rw [BitVec.toNat_add, Nat.mod_eq_of_lt (by omega)]

/-- R109: the new record's index is `nnode`, which fits in 9 bits while a merge remains. -/
theorem newIndex_toNat (hinv : BuilderInv s) (hact : 2 ≤ s.act.length) :
    (BitVec.ofNat 9 s.nodes.length : NodeIdx).toNat = s.nodes.length := by
  have := (nodes_length_le hinv).2 hact
  rw [BitVec.toNat_ofNat]
  omega

/-- R110: one member left is the root of a TREE; with more left the phase stays. -/
theorem joinNodes_phaseOk (hinv : BuilderInv s) (hact : 2 ≤ s.act.length) (ca cb : Word) :
    phaseOk (joinNodes a b ca cb act2 s) := by
  have hp := (phase_seeded_iff hinv).mpr hact
  have hn := newIndex_toNat hinv hact
  rcases act2 with - | ⟨x, xs⟩
  · exact phaseOk_of_tree (by simp) (by simp) (by simpa using hn)
  · exact phaseOk_of_seeded (by simp [hp]) (by simp) (by simp [root_of_seeded hinv hp])

/-- R109, R116: the earlier records stay as they were, and the new one is over two of them with their exact sum. -/
theorem joinNodes_shape (hinv : BuilderInv s) (h : Picked s a b act2 na nb) (i : Nat)
    (hi : i < (s.nodes ++ [Node.internal (na.count + nb.count) a b]).length) :
    nodeOk (s.nodes ++ [.internal (na.count + nb.count) a b]) s.nleaf.toNat i
      (s.nodes ++ [.internal (na.count + nb.count) a b])[i] := by
  obtain ⟨hla, -⟩ := nodeAt_eq_some_iff.mp h.left
  obtain ⟨hlb, -⟩ := nodeAt_eq_some_iff.mp h.right
  rw [List.length_append, List.length_singleton] at hi
  rcases Nat.lt_succ_iff_lt_or_eq.mp hi with hlt | rfl
  · rw [List.getElem_append_left hlt]
    exact nodeOk_append _ hlt (hinv.shape i hlt)
  · rw [List.getElem_concat_length rfl]
    refine ⟨nleaf_le_nodes hinv, hla, hlb, ?_⟩
    rw [countNat_append _ hla, countNat_append _ hlb, countNat_of_nodeAt h.left, countNat_of_nodeAt h.right,
      join_count_toNat hinv h]

/-- R43, R117: the picked two become children, and the new record joins the Active Set. -/
theorem joinNodes_forest (hinv : BuilderInv s) (h : Picked s a b act2 na nb) (c : Word) :
    (childRefs (s.nodes ++ [.internal c a b]) ++
      (act2 ++ [(BitVec.ofNat 9 s.nodes.length : NodeIdx)]).map BitVec.toNat).Perm
      (List.range (s.nodes ++ [Node.internal c a b]).length) := by
  have hn := newIndex_toNat hinv (by have := h.act_length; omega)
  rw [childRefs_append_internal, List.map_append, List.map_singleton, hn, List.length_append, List.length_singleton,
    List.range_succ]
  calc childRefs s.nodes ++ [a.toNat, b.toNat] ++ (act2.map BitVec.toNat ++ [s.nodes.length])
      = childRefs s.nodes ++ (a :: b :: act2).map BitVec.toNat ++ [s.nodes.length] := by simp
    List.Perm _ (childRefs s.nodes ++ s.act.map BitVec.toNat ++ [s.nodes.length]) :=
        ((h.perm.map BitVec.toNat).symm.append_left _).append_right _
    List.Perm _ (List.range s.nodes.length ++ [s.nodes.length]) := hinv.forest.append_right _

/-- R134: the new index is the greatest, and it is appended at the end. -/
theorem joinNodes_order (hinv : BuilderInv s) (h : Picked s a b act2 na nb) :
    ((act2 ++ [(BitVec.ofNat 9 s.nodes.length : NodeIdx)]).map BitVec.toNat).Pairwise (· < ·) := by
  have hn := newIndex_toNat hinv (by have := h.act_length; omega)
  rw [List.map_append, List.map_singleton, hn, List.pairwise_append]
  refine ⟨hinv.order.sublist (h.rest.map _), List.pairwise_singleton .., fun x hx y hy => ?_⟩
  obtain ⟨z, hz, rfl⟩ := List.mem_map.mp hx
  rw [List.mem_singleton.mp hy]
  exact act_lt hinv (h.rest.mem hz)

/-- R115: the new member's count replaces those of the two it joins, so the Active Set's counts sum to what they did. -/
theorem joinNodes_activeTotal (hinv : BuilderInv s) (h : Picked s a b act2 na nb) :
    activeTotal (joinNodes a b na.count nb.count act2 s) = activeTotal s := by
  have hn := newIndex_toNat hinv (by have := h.act_length; omega)
  have hold : act2.map (countNat (s.nodes ++ [.internal (na.count + nb.count) a b])) = act2.map (countNat s.nodes) :=
    List.map_congr_left fun x hx => countNat_append _ (act_lt hinv (h.rest.mem hx))
  have hnew : nodeAt (s.nodes ++ [.internal (na.count + nb.count) a b]) (BitVec.ofNat 9 s.nodes.length) =
      some (.internal (na.count + nb.count) a b) :=
    nodeAt_eq_some_iff.mpr ⟨by rw [hn]; simp, by simp only [hn]; exact List.getElem_concat_length rfl _⟩
  rw [activeTotal, joinNodes_nodes, joinNodes_act, List.map_append, List.sum_append, hold, List.map_singleton,
    List.sum_singleton, countNat_of_nodeAt hnew, Node.count, join_count_toNat hinv h, h.activeTotal_eq, Nat.add_comm]

/-- R109, R115 to R119, R134: joining two picked members keeps the builder's invariant. -/
theorem joinNodes_builder (hinv : BuilderInv s) (h : Picked s a b act2 na nb) :
    BuilderInv (joinNodes a b na.count nb.count act2 s) where
  phase := joinNodes_phaseOk hinv (by have := h.act_length; omega) ..
  size := by
    have hsize := hinv.size
    have hact := h.act_length
    rw [joinNodes_nodes, joinNodes_act, joinNodes_nleaf, List.length_append, List.length_append, List.length_singleton,
      List.length_singleton]
    omega
  leaves := hinv.leaves
  shape := joinNodes_shape hinv h
  symbols := by
    have hnone : [Node.internal (na.count + nb.count) a b].filterMap Node.leafSym = [] := rfl
    rw [joinNodes_nodes, List.filterMap_append, hnone, List.append_nil]
    exact hinv.symbols
  forest := joinNodes_forest hinv h _
  order := joinNodes_order hinv h
  sum := (joinNodes_activeTotal hinv h).trans hinv.sum

end

/-- R109: a merge keeps the builder's invariant. -/
theorem mergeOnce_keeps_builder {s t : State} (h : BuilderInv s) (hm : mergeOnce s = some t) : BuilderInv t := by
  obtain ⟨-, a, act1, b, act2, na, nb, h1, h2, ha, hb, rfl⟩ := mergeOnce_cases hm
  exact joinNodes_builder h (picked_of_selections h1 h2 ha hb)

/-! ### The commands' rules (R101 to R112) -/

/-- R104: SEED of a table that fits. -/
theorem exec_seed_of_fits {s : State} (h : fits s) : exec .seed s = .next (seedTable (seedClear s)) :=
  congrArg Host.Outcome.next (seedBody_of_fits h _)

/-- R111: MERGE with nothing seeded is a SEQUENCE error. -/
theorem exec_merge_none {s : State} (hp : s.phase = .none) :
    exec .merge s = .next (raiseError .sequence (encode .merge) s) := by
  delta exec execMerge
  dsimp only
  rw [hp]

/-- R108: MERGE in the loop is one MergeOnce. -/
theorem exec_merge_seeded {s t : State} (hp : s.phase = .seeded) (hm : mergeOnce s = some t) :
    exec .merge s = .next t := by
  delta exec execMerge
  dsimp only
  rw [hp]
  dsimp only
  rw [hm]

/-- R111: MERGE after the loop does nothing. -/
theorem exec_merge_done {s : State} (hp : s.phase = .tree ∨ s.phase = .empty) : exec .merge s = .next s := by
  delta exec execMerge
  dsimp only
  rcases hp with hp | hp <;> rw [hp]

/-- R112: the loop does not run outside phase SEEDED. -/
theorem mergeLoop_done {s : State} (hp : s.phase ≠ .seeded) (fuel : Nat) : mergeLoop fuel s = some s := by
  cases fuel <;> exact if_neg hp

/-- R112: in phase SEEDED the loop goes on after one merge. -/
theorem mergeLoop_succ {s t : State} (hp : s.phase = .seeded) (hm : mergeOnce s = some t) (fuel : Nat) :
    mergeLoop (fuel + 1) s = mergeLoop fuel t := by
  simp only [mergeLoop, hp, hm, if_true]

/-- R112: all the loop can do first: end, or one merge. -/
theorem mergeLoop_cases {fuel : Nat} {s t : State} (h : mergeLoop fuel s = some t) :
    (s.phase ≠ .seeded ∧ t = s) ∨
    (s.phase = .seeded ∧ ∃ k u, fuel = k + 1 ∧ mergeOnce s = some u ∧ mergeLoop k u = some t) := by
  by_cases hp : s.phase = .seeded
  · cases fuel with
    | zero => simp [mergeLoop, hp] at h
    | succ k =>
      simp only [mergeLoop, hp, if_true] at h
      split at h
      · cases h
      · next u hu => exact .inr ⟨hp, k, u, rfl, hu, h⟩
  · rw [mergeLoop_done hp] at h
    cases h
    exact .inl ⟨hp, rfl⟩

/-- R112: BUILD is the seeding and the loop. -/
theorem exec_build_of_loop {s t : State}
    (h : mergeLoop (seedBody (encode .build) s).act.length (seedBody (encode .build) s) = some t) :
    exec .build s = .next t := by
  delta exec execBuild
  dsimp only
  rw [h]

/-- R106, R112: BUILD of a table that does not fit is the error alone. -/
theorem exec_build_of_overflow {s : State} (h : ¬ fits s) :
    exec .build s = .next (raiseError .overflow (encode .build) (seedClear s)) := by
  refine exec_build_of_loop ?_
  rw [seedBody_of_overflow h]
  exact mergeLoop_done (by simp) _

/-- R113: the commands of a list run one after another. -/
theorem execAll_cons {i : Instr} {is : List Instr} {s t : State} (h : exec i s = .next t) :
    execAll (i :: is) s = execAll is t := by
  simp only [execAll, h]

/-- R113: a list of commands that completes completes its first. -/
theorem execAll_cons_cases {i : Instr} {is : List Instr} {s t : State} (h : execAll (i :: is) s = .next t) :
    ∃ u, exec i s = .next u ∧ execAll is u = .next t := by
  simp only [execAll] at h
  split at h
  · next u hu => exact ⟨u, hu, h⟩
  · cases h
  · cases h

/-- R84: the engine's turn with a command pending is the command's rule and the completion. -/
theorem engineTurn_command {s t : State} {i : Instr} (hr : s.rst = false) (hb : s.busy = true)
    (hd : decode s.pending = .ok i) (he : exec i s = .next t) : engineTurn s = .next (complete t) := by
  delta engineTurn engineComplete execute
  rw [hr, hb, hd]
  dsimp only
  rw [he]
  rfl

/-- Seeding does not write the control state. -/
theorem seedBody_control (w : Word) (s : State) : sameControl s (seedBody w s) := by
  rcases seedBody_cases w s with ⟨-, e⟩ | ⟨-, e⟩ <;> rw [e] <;> simp [sameControl]

/-- No command's rule writes the control state. -/
theorem exec_control {i : Instr} {s t : State} (h : exec i s = .next t) : sameControl s t := by
  cases i with
  | nop => cases h; simp [sameControl]
  | clearFreq => cases h; simp [sameControl]
  | seed => cases h; exact seedBody_control _ s
  | merge =>
    rcases execMerge_cases h with ⟨-, rfl⟩ | ⟨-, hm⟩ | ⟨-, rfl⟩
    · simp [sameControl]
    · rw [mergeOnce_frame hm]; simp [sameControl]
    · simp [sameControl]
  | build =>
    rw [mergeLoop_frame (execBuild_cases h)]
    exact seedBody_control _ s
  | extStart => rcases execExtStart_cases h with ⟨-, rfl⟩ | ⟨-, rfl⟩ <;> simp [sameControl]
  | extNext =>
    rcases execExtNext_cases h with ⟨-, rfl⟩ | ⟨-, q, -, ⟨tr, -, rfl⟩ | ⟨-, rfl⟩⟩ <;> simp [sameControl]

/-! ### Every step keeps the builder's invariant -/

/-- The builder's invariant reads the tree and the Active Set alone. -/
theorem builder_of_sameTree {s t : State} (hs : sameTree s t) (h : BuilderInv s) : BuilderInv t := by
  cases t
  obtain ⟨rfl, rfl, rfl, rfl, rfl, rfl⟩ := hs
  exact ⟨h.phase, h.size, h.leaves, h.shape, h.symbols, h.forest, h.order, h.sum⟩

/-- R103, R106: seeding meets the builder's invariant whatever the state before. -/
theorem seedBody_builder (w : Word) (s : State) : BuilderInv (seedBody w s) := by
  by_cases hf : fits s
  · rw [seedBody_of_fits hf]
    exact seedTable_builder hf
  · rw [seedBody_of_overflow hf]
    exact builder_of_sameTree (by simp [sameTree]) (seedClear_builder s)

/-- R112: the loop keeps what every merge keeps. -/
theorem mergeLoop_keeps_builder {fuel : Nat} {s t : State} (h : BuilderInv s) (hl : mergeLoop fuel s = some t) :
    BuilderInv t := by
  induction fuel generalizing s with
  | zero =>
    obtain ⟨-, rfl⟩ | ⟨-, k, u, hk, -⟩ := mergeLoop_cases hl
    · exact h
    · cases hk
  | succ fuel ih =>
    obtain ⟨-, rfl⟩ | ⟨-, k, u, hk, hu, hrest⟩ := mergeLoop_cases hl
    · exact h
    · cases hk
      exact ih (mergeOnce_keeps_builder h hu) hrest

/-- Every command keeps the builder's invariant. -/
theorem exec_keeps_builder {i : Instr} {s t : State} (h : BuilderInv s) (he : exec i s = .next t) : BuilderInv t := by
  cases i with
  | nop => cases he; exact h
  | clearFreq => cases he; exact builder_of_sameTree (by simp [sameTree]) h
  | seed => cases he; exact seedBody_builder _ s
  | merge =>
    rcases execMerge_cases he with ⟨-, rfl⟩ | ⟨-, hm⟩ | ⟨-, rfl⟩
    · exact builder_of_sameTree (by simp [sameTree]) h
    · exact mergeOnce_keeps_builder h hm
    · exact h
  | build => exact mergeLoop_keeps_builder (seedBody_builder _ s) (execBuild_cases he)
  | extStart =>
    rcases execExtStart_cases he with ⟨-, rfl⟩ | ⟨-, rfl⟩ <;> exact builder_of_sameTree (by simp [sameTree]) h
  | extNext =>
    rcases execExtNext_cases he with ⟨-, rfl⟩ | ⟨-, q, -, ⟨tr, -, rfl⟩ | ⟨-, rfl⟩⟩ <;>
      exact builder_of_sameTree (by simp [sameTree]) h

/-- R191: the reset values meet the builder's invariant. -/
theorem holdReset_builder (s : State) : BuilderInv (holdReset s) :=
  builder_of_sameTree (s := seedClear s) ⟨rfl, rfl, rfl, rfl, rfl, rfl⟩ (seedClear_builder s)

/-- R84: the engine's turn keeps the builder's invariant. -/
theorem engineTurn_keeps_builder {s t : State} (h : BuilderInv s) (he : engineTurn s = .next t) : BuilderInv t := by
  rcases engineTurn_cases he with ⟨-, rfl⟩ | ⟨-, -, hc⟩ | ⟨-, -, rfl⟩
  · exact holdReset_builder s
  · obtain ⟨u, rfl, ⟨i, -, hu⟩ | ⟨r, -, rfl⟩⟩ := engineComplete_cases hc
    · exact builder_of_sameTree (by simp [sameTree]) (exec_keeps_builder h hu)
    · exact builder_of_sameTree (by simp [sameTree]) h
  · exact h

/-- R61: no transaction reaches the tree. -/
theorem busStep_sameTree (op : BusOp) (s : State) : sameTree s (busStep op s) := by
  rcases busStep_cases op s with ⟨ans, d, e⟩ | ⟨a, w, -, -, e⟩
  · rw [e]
    simp [sameTree]
  · rw [e]
    rcases writeReg_cases a w s with e | e | e | ⟨-, e⟩ | ⟨-, e | e | e | ⟨sym, e⟩⟩ <;> rw [e] <;> simp [sameTree]

/-- R43, R45, R105, R115 to R119, R134: every step keeps the builder's invariant. -/
theorem step_keeps_builder {s t : State} (h : BuilderInv s) (hs : step s = .next t) : BuilderInv t := by
  obtain ⟨s0, hs0, hturn⟩ := step_cases hs
  have h0 : BuilderInv s0 := by
    rcases hs0 with ⟨-, rfl⟩ | ⟨i, rest, -, rfl⟩
    · exact h
    · exact builder_of_sameTree (by simp [sameTree]) h
  rcases hturn with ⟨-, he⟩ | ⟨op, rest, -, -, rfl⟩ | ⟨rest, -, rfl⟩ | ⟨rest, -, rfl⟩
  · exact engineTurn_keeps_builder h0 he
  · exact builder_of_sameTree (busStep_sameTree op s0) h0
  · exact holdReset_builder s0
  · exact builder_of_sameTree (by simp [sameTree]) h0

/-! ### The merge loop (R110, R113) -/

/-- R110: with two or more members left MERGE completes, keeps the builder's invariant and lowers their number by 1. -/
theorem exec_merge_of_two {s : State} (h : BuilderInv s) (hact : 2 ≤ s.act.length) :
    ∃ t, mergeOnce s = some t ∧ exec .merge s = .next t ∧ BuilderInv t ∧ t.act.length + 1 = s.act.length := by
  obtain ⟨t, ht⟩ := mergeOnce_exists h hact
  exact ⟨t, ht, exec_merge_seeded ((phase_seeded_iff h).mpr hact) ht, mergeOnce_keeps_builder h ht,
    (mergeOnce_act_length ht).1⟩

/-- R110: `m` merges complete while at least one member is left after them, and lower the number of members by `m`. -/
theorem execAll_merges {s : State} (h : BuilderInv s) {m : Nat} (hm : m ≤ s.act.length - 1) :
    ∃ t, execAll (List.replicate m .merge) s = .next t ∧ BuilderInv t ∧ t.act.length = s.act.length - m := by
  induction m generalizing s with
  | zero => exact ⟨s, rfl, h, rfl⟩
  | succ m ih =>
    obtain ⟨u, -, hu, hinv, hlen⟩ := exec_merge_of_two h (by omega)
    obtain ⟨t, ht, hinv', hlen'⟩ := ih hinv (by omega)
    exact ⟨t, by rw [List.replicate_succ, execAll_cons hu, ht], hinv', by omega⟩

/-- R112, R113: the loop is as many merges as leave one member. -/
theorem mergeLoop_of_merges {s t : State} (h : BuilderInv s) {m fuel : Nat} (hm : m = s.act.length - 1) (hf : m ≤ fuel)
    (hall : execAll (List.replicate m .merge) s = .next t) : mergeLoop fuel s = some t := by
  induction m generalizing s fuel with
  | zero =>
    cases hall
    exact mergeLoop_done (fun hp => by have := (phase_seeded_iff h).mp hp; omega) fuel
  | succ m ih =>
    obtain ⟨u, hmerge, hu, hinv, hlen⟩ := exec_merge_of_two h (by omega)
    obtain ⟨fuel, rfl⟩ : ∃ k, fuel = k + 1 := ⟨fuel - 1, by omega⟩
    rw [List.replicate_succ, execAll_cons hu] at hall
    rw [mergeLoop_succ ((phase_seeded_iff h).mpr (by omega)) hmerge]
    exact ih hinv (by omega) (by omega) hall

/-- R105: a table seeds as many members as it has present symbols. -/
theorem seedTable_act_length (s : State) : (seedTable (seedClear s)).act.length = (presentSyms s).length := by
  simp [seedLeaves_length]

/-- R110: SEED of a table that fits and `m` merges after it. -/
theorem execAll_seed_merges {s : State} (h : fits s) {m : Nat} (hm : m ≤ (presentSyms s).length - 1) :
    ∃ t, execAll (.seed :: List.replicate m .merge) s = .next t ∧ BuilderInv t ∧
      t.act.length = (presentSyms s).length - m := by
  rw [← seedTable_act_length] at hm ⊢
  rw [execAll_cons (exec_seed_of_fits h)]
  exact execAll_merges (seedTable_builder h) hm

/-- R112, R113: BUILD of a table that fits is SEED and L - 1 merges. -/
theorem exec_build_of_merges {s t : State} (h : fits s)
    (hall : execAll (.seed :: List.replicate ((presentSyms s).length - 1) .merge) s = .next t) :
    exec .build s = .next t := by
  refine exec_build_of_loop ?_
  rw [execAll_cons (exec_seed_of_fits h), ← seedTable_act_length] at hall
  rw [seedBody_of_fits h]
  exact mergeLoop_of_merges (seedTable_builder h) rfl (Nat.sub_le _ _) hall

/-- R119: SEED and BUILD of a table that fits leave its exact total, which no merge changes. -/
theorem exec_total_of_fits {s : State} (h : fits s) {i : Instr} (hi : i = .seed ∨ i = .build) :
    ∃ t, exec i s = .next t ∧ t.total.toNat = freqTotal s.freq := by
  rcases hi with rfl | rfl
  · exact ⟨_, exec_seed_of_fits h, seedTable_total_toNat h⟩
  · obtain ⟨t, hall, -⟩ := execAll_seed_merges h le_rfl
    have hbuild := exec_build_of_merges h hall
    have hloop := execBuild_cases hbuild
    refine ⟨t, hbuild, ?_⟩
    rw [mergeLoop_frame hloop, seedBody_of_fits h]
    exact seedTable_total_toNat h

/-! ### RUN against the commands' rules (R91, R113) -/

/-- What the issue and the completion of a command write: the engine's state and the host's last answer. -/
def State.withHost (busy : Bool) (pending : Word) (done : Bool) (answer : Option Answer) (s : State) : State :=
  { s with busy := busy, pending := pending, done := done, answer := answer }

section
variable (busy : Bool) (pending : Word) (done : Bool) (answer : Option Answer)

/-- Recording an error does not read what a RUN writes. -/
theorem raiseError_withHost (code : ErrCode) (info : Word) (s : State) :
    raiseError code info (s.withHost busy pending done answer) =
      (raiseError code info s).withHost busy pending done answer := by
  delta raiseError State.withHost
  cases he : s.err <;> simp [he]

/-- Seeding does not read what a RUN writes. -/
theorem seedBody_withHost (w : Word) (s : State) :
    seedBody w (s.withHost busy pending done answer) = (seedBody w s).withHost busy pending done answer := by
  by_cases hf : fits s
  · rw [seedBody_of_fits hf, seedBody_of_fits (s := s.withHost busy pending done answer) hf]
    rfl
  · rw [seedBody_of_overflow hf, seedBody_of_overflow (s := s.withHost busy pending done answer) hf]
    exact raiseError_withHost busy pending done answer _ _ (seedClear s)

/-- A merge does not read what a RUN writes. -/
theorem mergeOnce_withHost {s t : State} (h : mergeOnce s = some t) :
    mergeOnce (s.withHost busy pending done answer) = some (t.withHost busy pending done answer) := by
  obtain ⟨hroom, a, act1, b, act2, na, nb, h1, h2, ha, hb, rfl⟩ := mergeOnce_cases h
  exact mergeOnce_of_selections (s := s.withHost busy pending done answer) hroom h1 h2 ha hb

/-- The loop does not read what a RUN writes. -/
theorem mergeLoop_withHost {fuel : Nat} {s t : State} (h : mergeLoop fuel s = some t) :
    mergeLoop fuel (s.withHost busy pending done answer) = some (t.withHost busy pending done answer) := by
  induction fuel generalizing s with
  | zero =>
    obtain ⟨hp, rfl⟩ | ⟨-, k, u, hk, -⟩ := mergeLoop_cases h
    · exact mergeLoop_done (s := t.withHost busy pending done answer) hp 0
    · cases hk
  | succ fuel ih =>
    obtain ⟨hp, rfl⟩ | ⟨hp, k, u, hk, hu, hrest⟩ := mergeLoop_cases h
    · exact mergeLoop_done (s := t.withHost busy pending done answer) hp _
    · cases hk
      rw [mergeLoop_succ (s := s.withHost busy pending done answer) hp (mergeOnce_withHost busy pending done answer hu)]
      exact ih hrest

/-- No builder command reads what a RUN writes. -/
theorem exec_withHost {i : Instr} (hi : i = .seed ∨ i = .merge ∨ i = .build) {s t : State} (h : exec i s = .next t) :
    exec i (s.withHost busy pending done answer) = .next (t.withHost busy pending done answer) := by
  rcases hi with rfl | rfl | rfl
  · cases h
    exact congrArg Host.Outcome.next (seedBody_withHost busy pending done answer _ s)
  · rcases execMerge_cases h with ⟨hp, rfl⟩ | ⟨hp, hm⟩ | ⟨hp, rfl⟩
    · rw [exec_merge_none (s := s.withHost busy pending done answer) hp, raiseError_withHost]
    · exact exec_merge_seeded hp (mergeOnce_withHost busy pending done answer hm)
    · exact exec_merge_done hp
  · refine exec_build_of_loop ?_
    rw [seedBody_withHost]
    exact mergeLoop_withHost busy pending done answer (execBuild_cases h)

/-- No list of builder commands reads what a RUN writes. -/
theorem execAll_withHost {is : List Instr} (his : ∀ i ∈ is, i = .seed ∨ i = .merge ∨ i = .build) {s t : State}
    (h : execAll is s = .next t) :
    execAll is (s.withHost busy pending done answer) = .next (t.withHost busy pending done answer) := by
  induction is generalizing s with
  | nil => cases h; rfl
  | cons i is ih =>
    obtain ⟨u, hu, hrest⟩ := execAll_cons_cases h
    rw [execAll_cons (exec_withHost busy pending done answer (his i List.mem_cons_self) hu)]
    exact ih (fun j hj => his j (List.mem_cons_of_mem i hj)) hrest

end

/-- R91: a RUN of a builder command on an idle block is the command's rule and its completion. -/
theorem runCommand_of_exec {i : Instr} (hi : i = .seed ∨ i = .merge ∨ i = .build) {s t : State} (hr : s.rst = false)
    (hb : s.busy = false) (h : exec i s = .next t) :
    runCommand i s = .next (t.withHost false (encode i) true (some (.write .ok))) := by
  have hexec : exec i { issue (encode i) s with answer := some (.write .ok) } =
      .next (t.withHost true (encode i) s.done (some (.write .ok))) :=
    exec_withHost true (encode i) s.done (some (.write .ok)) hi (s := s) h
  rw [runCommand_idle hr hb, hexec]
  rfl

/-- R113: RUN of builder commands one after another leaves what the commands' rules leave, but for the engine's state
and the host's answer. -/
theorem runAll_of_execAll {is : List Instr} (his : ∀ i ∈ is, i = .seed ∨ i = .merge ∨ i = .build) (hne : is ≠ [])
    {s t : State} (hr : s.rst = false) (hb : s.busy = false) (h : execAll is s = .next t) :
    ∃ w, runAll is s = .next (t.withHost false w true (some (.write .ok))) := by
  induction is generalizing s t with
  | nil => exact absurd rfl hne
  | cons i is ih =>
    obtain ⟨u, hu, hrest⟩ := execAll_cons_cases h
    have hrun := runCommand_of_exec (his i List.mem_cons_self) hr hb hu
    obtain ⟨-, -, -, -, -, -, -, hrst, -⟩ := exec_control hu
    have his' : ∀ j ∈ is, j = .seed ∨ j = .merge ∨ j = .build := fun j hj => his j (List.mem_cons_of_mem i hj)
    simp only [runAll, hrun]
    rcases is with - | ⟨j, js⟩
    · cases hrest
      exact ⟨_, rfl⟩
    · exact ih (s := u.withHost false (encode i) true (some (.write .ok)))
        (t := t.withHost false (encode i) true (some (.write .ok))) his' (List.cons_ne_nil j js) (hrst.trans hr) rfl
        (execAll_withHost _ _ _ _ his' hrest)

/-! ### The claims -/

/-- Settles O20: NOP's rule is the identity, so its turn is the completion alone, and a word with a reserved bit set
is no NOP. -/
theorem nopOnlyCompletes : Obligations.NopOnlyCompletes := by
  refine ⟨decode_encode .nop, fun s => rfl, fun s hr hb hp => ?_, fun w hz => ?_⟩
  · exact engineTurn_command hr hb (i := .nop) (hp ▸ decode_encode .nop) rfl
  · rw [decode_zeroFieldSet hz]
    exact nofun

/-- Settles O21: the zeroed table has no present symbol, so it fits and seeds no leaf. -/
theorem clearFreqZeroesTheTable : Obligations.ClearFreqZeroesTheTable := by
  refine ⟨decode_encode .clearFreq, fun s => ⟨clearFreqTable s, rfl, fun sym => ?_, ?_, ?_, ?_,
    exec_control (i := .clearFreq) rfl, seq_congr rfl rfl rfl, fun hzero => ?_, ?_⟩⟩
  · simp [readFreq]
  · simp [sameTree]
  · simp [sameExtractor]
  · simp [sameError]
  · have hfreq : s.freq = Vector.replicate 256 0 := by
      refine Vector.ext fun i hi => ?_
      have hidx : (BitVec.ofNat 8 i).toNat = i := Nat.mod_eq_of_lt hi
      simpa [readFreq, hidx] using hzero (BitVec.ofNat 8 i)
    rw [clearFreqTable, ← hfreq]
  · refine ⟨_, exec_seed_of_fits (clearFreqTable_fits s), ?_⟩
    rw [seedTable_phase, seedClear_freq, clearFreqTable_freq, seedLeaves_replicate_zero]
    rfl

/-- Settles O24: the two arms of MERGE that do not merge. -/
theorem mergeOutsideTheLoop : Obligations.MergeOutsideTheLoop :=
  fun s => ⟨exec_merge_done, fun hp => ⟨_, exec_merge_none hp, raiseError_recorded .sequence (encode .merge) s,
    raiseError_results .sequence (encode .merge) s, exec_control (exec_merge_none hp)⟩⟩

/-- Settles O11, by counting: each internal node names two children, and every node but the active ones is named
once. -/
theorem nodeCounts : Obligations.NodeCounts := by
  intro s hinv
  refine ⟨(nodes_length_le hinv.builder).1, ?_⟩
  rintro L m rfl rfl
  obtain ⟨hleaves, hnodes, hact⟩ := leaves_internals hinv.builder
  refine ⟨hleaves, fun hp => ?_, fun _ => by omega⟩
  have hone := (phase_tree_iff hinv.builder).mp hp
  omega

/-- Settles O12: the state after the step meets the builder's invariant, whose counts are all positive. -/
theorem internalCountsAreSums : Obligations.InternalCountsAreSums := by
  intro s t hinv hstep
  have h := step_keeps_builder hinv.builder hstep
  refine ⟨fun i sym c => leaf_count_pos h, fun i c l r hn => ?_⟩
  obtain ⟨nl, nr, hnl, hnr, -, -, hc⟩ := children_allocated h hn
  have hpl := count_pos h _ (Nat.lt_succ_self _) hnl
  have hpr := count_pos h _ (Nat.lt_succ_self _) hnr
  exact ⟨nl, nr, hnl, hnr, hc, by omega⟩

/-- Settles O13: the child references and the Active Set together name every node once, and the leaves' symbols
ascend. -/
theorem everyNodeHasOneParent : Obligations.EveryNodeHasOneParent :=
  fun _ hinv => ⟨fun _ _ _ _ => children_ne hinv.builder, fun hp _ => childRefs_count hinv.builder hp,
    fun _ _ _ _ _ => leaf_unique hinv.builder⟩

/-- Settles O14: the leaves' counts sum to the Active Set's in every phase, and in TREE that is the root alone. -/
theorem rootCountIsTheTotal : Obligations.RootCountIsTheTotal :=
  ⟨fun _ hinv hp => ⟨root_count hinv.builder hp, (activeTotal_eq_leaves hinv.builder).trans hinv.builder.sum⟩,
    fun _ _ hi h => exec_total_of_fits h hi⟩

/-- Settles O22: the seeded records are the present symbols' leaves, and the phase is by their number. -/
theorem seedWithoutOverflow : Obligations.SeedWithoutOverflow := by
  intro s hfits
  have h := seedTable_builder hfits
  have hnodes := seedLeaves_length s
  have hact := seedTable_act_length s
  refine ⟨_, exec_seed_of_fits hfits, seedLeaves_eq s, ?_, (seedTable_nleaf_toNat s).trans hnodes, rfl,
    seedTable_total_toNat hfits, fun h0 => ?_, fun h1 => (phase_tree_iff h).mpr (hact.trans h1),
    fun h2 => (phase_seeded_iff h).mpr (h2.trans_eq hact.symm), by simp [extractorClear, outZero], rfl, ⟨rfl, rfl, rfl⟩,
    exec_control (exec_seed_of_fits hfits)⟩
  · rw [seedTable_act_toNat, ← hnodes]
    rfl
  · rw [seedTable_phase, seedClear_freq, hnodes, h0]
    rfl

/-- Settles O23: the 40-bit sum does not wrap, and the overflow arm of the seeding ends BUILD as well as SEED. -/
theorem overflowLeavesNoTree : Obligations.OverflowLeavesNoTree := by
  refine fun s => ⟨freqSum_toNat s.freq, fun hover i hi => ?_⟩
  have hexec : exec i s = .next (raiseError .overflow (encode i) (seedClear s)) := by
    rcases hi with rfl | rfl
    · exact congrArg Host.Outcome.next (seedBody_of_overflow hover _)
    · exact exec_build_of_overflow hover
  refine ⟨_, hexec, by simp, by simp, by simp, by simp, by simp, by simp, by simp [extractorClear, outZero], by simp,
    raiseError_recorded .overflow (encode i) (seedClear s), exec_control hexec⟩

/-- Settles O25: under the invariant MergeOnce is within its precondition, and the joined counts do not overflow. -/
theorem mergeJoinsTheTwoLeast : Obligations.MergeJoinsTheTwoLeast := by
  intro s hinv hp
  have h := hinv.builder
  have hact := (phase_seeded_iff h).mp hp
  obtain ⟨t, hm, hexec, -⟩ := exec_merge_of_two h hact
  obtain ⟨-, a, act1, b, act2, na, nb, h1, h2, ha, hb, rfl⟩ := mergeOnce_cases hm
  have hcount := join_count_toNat h (picked_of_selections h1 h2 ha hb)
  refine ⟨_, a, b, act1, act2, na, nb, hexec, h1, h2, ha, hb, rfl, hcount,
    ⟨_, newIndex_toNat h hact, rfl, fun hone => ⟨if_pos hone, if_pos hone⟩, fun hmore => ⟨?_, if_neg hmore⟩⟩,
    rfl, rfl, rfl, by simp [sameExtractor], by simp [sameError], exec_control hexec⟩
  exact (if_neg hmore).trans hp

/-- Settles O26: the phase is by the number of members, which each merge lowers by 1. -/
theorem mergesTerminate : Obligations.MergesTerminate := by
  intro s hfits hL m hm
  obtain ⟨t, hall, hinv, hlen⟩ := execAll_seed_merges hfits hm
  refine ⟨t, hall, hlen, fun hlt => (phase_seeded_iff hinv).mpr (by omega), fun heq => ?_⟩
  have hp := (phase_tree_iff hinv).mpr (by omega)
  exact ⟨hp, phaseOk_tree hinv.phase hp⟩

/-- Settles O28: the loop of BUILD is the L - 1 merges, and a RUN adds to a command's rule what no builder command
reads. -/
theorem buildEqualsSeedThenMerges : Obligations.BuildEqualsSeedThenMerges := by
  intro s hfits
  obtain ⟨t, hall, -⟩ := execAll_seed_merges hfits le_rfl
  have hbuild := exec_build_of_merges hfits hall
  refine ⟨⟨t, hbuild, hall⟩, fun hr hb => ?_⟩
  obtain ⟨v, hv⟩ := runAll_of_execAll (is := [.build]) (by simp) (by simp) hr hb
    ((execAll_cons hbuild).trans rfl)
  obtain ⟨w, hw⟩ := runAll_of_execAll (by simp) (by simp) hr hb hall
  exact ⟨_, _, hv, hw, rfl, rfl, rfl⟩

end Sys2Proof.Machine
end

section
/-! PROOF. The priority_node_selector (41_priority_node_selector.md rules R131 to R135): positions in an increasing Active
Set, the 41-bit key as a number, what a selection returns, and the four claims on top of them. -/

namespace Sys2Proof.Machine

open Sys2Proof

/-! ### An increasing Active Set (R134) -/

/-- R134: in an increasing Active Set, members stand in the order of their indices. -/
theorem position_lt_iff {act : List NodeIdx} (h : act.Pairwise fun x y => x.toNat < y.toNat) {i j : Nat}
    {x y : NodeIdx} (hx : act[i]? = some x) (hy : act[j]? = some y) : i < j ↔ x.toNat < y.toNat := by
  obtain ⟨hi, rfl⟩ := List.getElem?_eq_some_iff.mp hx
  obtain ⟨hj, rfl⟩ := List.getElem?_eq_some_iff.mp hy
  rw [List.pairwise_iff_getElem] at h
  rcases Nat.lt_trichotomy i j with hij | rfl | hji
  · exact iff_of_true hij (h i j hi hj hij)
  · simp
  · exact iff_of_false hji.not_gt (h j i hj hi hji).not_gt

/-- R134: no member stands twice in the Active Set. -/
theorem act_nodup {s : State} (h : BuilderInv s) : s.act.Nodup :=
  List.Nodup.of_map BitVec.toNat (h.order.imp Nat.ne_of_lt)

/-- R105, R109: a leaf has a smaller index than an internal node. -/
theorem leaf_lt_internal {s : State} (h : BuilderInv s) {x y : NodeIdx} {n m : Node} (hn : nodeAt s.nodes x = some n)
    (hm : nodeAt s.nodes y = some m) (hleaf : n.isInternal = false) (hint : m.isInternal = true) :
    x.toNat < y.toNat := by
  cases n with
  | internal c l r => cases hleaf
  | leaf sym c =>
    cases m with
    | leaf sym' c' => cases hint
    | internal c' l r =>
      obtain ⟨hx, -⟩ := nodeOk_of_nodeAt h hn
      obtain ⟨hy, -⟩ := nodeOk_of_nodeAt h hm
      exact hx.trans_le hy

/-! ### The 41-bit key (R135) -/

/-- R135: the key as a number. -/
theorem selKey_toNat (c : Word) (x : NodeIdx) : (selKey c x).toNat = c.toNat * 512 + x.toNat := by
  rw [selKey, BitVec.toNat_append, ← Nat.shiftLeft_add_eq_or_of_lt x.isLt, Nat.shiftLeft_eq]

/-- R135: the key orders by the count, and equal counts by the index. -/
theorem selKey_lt_iff {c d : Word} {x y : NodeIdx} :
    (selKey c x).toNat < (selKey d y).toNat ↔
      c.toNat < d.toNat ∨ c.toNat = d.toNat ∧ x.toNat < y.toNat := by
  have hx := x.isLt
  have hy := y.isLt
  rw [selKey_toNat, selKey_toNat]
  omega

/-- R135: two nodes of one key are one node, its low bits being the index. -/
theorem selKey_index_inj {c d : Word} {x y : NodeIdx} (h : selKey c x = selKey d y) : x = y := by
  have hkey := congrArg BitVec.toNat h
  have hx := x.isLt
  have hy := y.isLt
  rw [selKey_toNat, selKey_toNat] at hkey
  exact BitVec.eq_of_toNat_eq (by omega)

/-! ### One selection (R131) -/

/-- R131: the selected member is the earliest of least count, and the rest is the Active Set without its position. -/
theorem selectRemove_earliest_min {nodes : List Node} {act rest : List NodeIdx} {x : NodeIdx}
    (h : selectRemove nodes act = some (x, rest)) :
    ∃ p n, act[p]? = some x ∧ rest = act.eraseIdx p ∧ nodeAt nodes x = some n ∧
      (∀ y ∈ act, ∃ k, nodeAt nodes y = some k ∧ n.count.toNat ≤ k.count.toNat) ∧
      (∀ i y k, i < p → act[i]? = some y → nodeAt nodes y = some k → n.count.toNat < k.count.toNat) := by
  obtain ⟨cs, p, hcs, hp, hx, hrest⟩ := selectRemove_cases h
  obtain ⟨-, hcount⟩ := countsOf_cases hcs
  obtain ⟨m, hm, hmin, hfirst⟩ := selectPos_cases hp
  obtain ⟨n, hn, hcn⟩ := hcount p x hx
  obtain rfl : n.count = m := Option.some.inj (hcn.symm.trans hm)
  refine ⟨p, n, hx, hrest, hn, fun y hy => ?_, fun i y k hi hy hk => ?_⟩
  · obtain ⟨i, hi⟩ := List.getElem?_of_mem hy
    obtain ⟨k, hk, hck⟩ := hcount i y hi
    exact ⟨k, hk, hmin _ (List.mem_of_getElem? hck)⟩
  · obtain ⟨k', hk', hck⟩ := hcount i y hy
    obtain rfl : k' = k := Option.some.inj (hk'.symm.trans hk)
    refine (hmin _ (List.mem_of_getElem? hck)).lt_of_ne fun heq => hfirst i hi ?_
    rw [hck, BitVec.eq_of_toNat_eq heq]

/-! ### The claims -/

/-- Settles O15: the invariant orders the Active Set, and a leaf's index lies below `nleaf`, an internal node's not. -/
theorem activeSetIsIncreasing : Obligations.ActiveSetIsIncreasing := by
  intro s hinv _
  have h := hinv.builder
  have horder := List.pairwise_map.mp h.order
  obtain ⟨-, -, hlen⟩ := leaves_internals h
  refine ⟨horder, by omega, h.leaves, fun i j x y n m hx hy hn hm hleaf hint => ?_⟩
  exact (position_lt_iff horder hx hy).mpr (leaf_lt_internal h hn hm hleaf hint)

/-- Settles O16: the position selected is the first of the least count among the members' counts. -/
theorem selectionIsEarliestMinimum : Obligations.SelectionIsEarliestMinimum := by
  refine fun nodes act => ⟨fun x rest => selectRemove_earliest_min, fun hne halloc => ?_⟩
  obtain ⟨x, rest, h⟩ := selectRemove_exists hne fun y hy => by
    obtain ⟨k, hk⟩ := Option.isSome_iff_exists.mp (halloc y hy)
    exact (nodeAt_eq_some_iff.mp hk).1
  exact Option.isSome_of_eq_some h

/-- Settles O18: the second selection is another member of the Active Set, so the first selection has no larger count,
and on equal counts stands first. -/
theorem secondSelectionFollowsFirst : Obligations.SecondSelectionFollowsFirst := by
  intro s t hinv hp hexec
  rcases execMerge_cases hexec with ⟨hp', -⟩ | ⟨-, hm⟩ | ⟨hp', -⟩
  case inl | inr.inr => simp [hp] at hp'
  case inr.inl =>
    obtain ⟨-, a, act1, b, act2, na, nb, h1, h2, ha, hb, rfl⟩ := mergeOnce_cases hm
    have hperm := (picked_of_selections h1 h2 ha hb).perm
    have hab : a ≠ b := by
      have hnodup := hperm.nodup_iff.mp (act_nodup hinv.builder)
      rintro rfl
      simp at hnodup
    obtain ⟨j, hj⟩ := List.getElem?_of_mem (hperm.mem_iff.mpr (List.mem_cons_of_mem a List.mem_cons_self))
    obtain ⟨p, na', hpa, -, hna, hmin, hfirst⟩ := selectRemove_earliest_min h1
    obtain rfl : na' = na := Option.some.inj (hna.symm.trans ha)
    obtain ⟨nb', hnb, hle⟩ := hmin b (List.mem_of_getElem? hj)
    obtain rfl : nb' = nb := Option.some.inj (hnb.symm.trans hb)
    refine ⟨a, b, act1, act2, na', nb', _, p, j, h1, h2, rfl, hab, ha, hb, hpa, hj, hle, fun heq => ?_⟩
    rcases Nat.lt_trichotomy p j with hpj | rfl | hjp
    · exact hpj
    · exact absurd (Option.some.inj (hpa.symm.trans hj)) hab
    · exact absurd (hfirst j b nb' hjp hj hb) (heq ▸ Nat.lt_irrefl _)

/-- Settles O19: a member before the selected one has a larger count, and one after it no smaller count and a larger
index. -/
theorem selectionIsLeastKey : Obligations.SelectionIsLeastKey := by
  intro nodes act x rest horder h
  obtain ⟨p, n, hx, -, hn, hmin, hfirst⟩ := selectRemove_earliest_min h
  refine ⟨n, hn, fun y k hy hne hk => selKey_lt_iff.mpr ?_,
    fun y z k l _ _ hyz _ _ hkey => hyz (selKey_index_inj hkey)⟩
  obtain ⟨i, hi⟩ := List.getElem?_of_mem hy
  obtain ⟨k', hk', hle⟩ := hmin y hy
  obtain rfl : k' = k := Option.some.inj (hk'.symm.trans hk)
  rcases Nat.lt_trichotomy i p with hip | rfl | hpi
  · exact .inl (hfirst i y k' hip hi hk)
  · exact absurd (Option.some.inj (hi.symm.trans hx)) hne
  · exact hle.lt_or_eq.imp_right fun heq => ⟨heq, (position_lt_iff horder hx hi).mp hpi⟩

end Sys2Proof.Machine
end

section
/-! PROOF. The code_extractor (42_code_extractor.md rules R140 to R149): the leaf sequence as a function of a node and a path,
its triples against the leaves of the arena, the lengths of its codes and that none begins another, the two commands' rules, that
every step keeps the extractor's invariant, and the ten claims on top of them. -/

namespace Sys2Proof.Machine

open Sys2Proof

/-! ### The leaf sequence as a function (R143) -/

/-- R143: the triples of the leaves below a node, depth first (none where the recursion does not end). -/
def triplesAt (nodes : List Node) (n : NodeIdx) (path : List Bool) : List Triple :=
  (leavesAt nodes nodes.length n path).getD []

/-- R116: child indices lie below their parent's. -/
theorem children_lt {s : State} (h : BuilderInv s) (n : NodeIdx) (c : Word) (l r : NodeIdx)
    (hn : nodeAt s.nodes n = some (.internal c l r)) : l.toNat < n.toNat ∧ r.toNat < n.toNat := by
  obtain ⟨-, hl, hr, -⟩ := nodeOk_of_nodeAt h hn
  exact ⟨hl, hr⟩

/-- R143: the recursion from an allocated node ends. -/
theorem leavesAt_eq_triplesAt {s : State} (h : BuilderInv s) {n : NodeIdx} (hn : n.toNat < s.nodes.length)
    (path : List Bool) : leavesAt s.nodes s.nodes.length n path = some (triplesAt s.nodes n path) := by
  obtain ⟨q, hq⟩ := leavesAt_isSome (children_lt h) path hn hn
  rw [triplesAt, hq, Option.getD_some]

/-- R143: a leaf has one triple, with the path it is reached by. -/
theorem triplesAt_leaf {s : State} (h : BuilderInv s) {n : NodeIdx} {sym : Sym} {c : Word}
    (hn : nodeAt s.nodes n = some (.leaf sym c)) (path : List Bool) : triplesAt s.nodes n path = [⟨sym, path, c⟩] := by
  obtain ⟨hlt, -⟩ := nodeAt_eq_some_iff.mp hn
  obtain ⟨k, -, ⟨sym', c', hn', hq⟩ | ⟨c', l, r, -, -, hn', -⟩⟩ :=
    leavesAt_cases (leavesAt_eq_triplesAt h hlt path)
  · cases hn.symm.trans hn'
    exact hq
  · cases hn.symm.trans hn'

/-- R143: an internal node has the triples of its left child, on the path with 0 appended, then of its right child, with 1. -/
theorem triplesAt_internal {s : State} (h : BuilderInv s) {n : NodeIdx} {c : Word} {l r : NodeIdx}
    (hn : nodeAt s.nodes n = some (.internal c l r)) (path : List Bool) :
    triplesAt s.nodes n path = triplesAt s.nodes l (path ++ [false]) ++ triplesAt s.nodes r (path ++ [true]) := by
  obtain ⟨hlt, -⟩ := nodeAt_eq_some_iff.mp hn
  obtain ⟨k, hk, ⟨sym, c', hn', -⟩ | ⟨c', l', r', ql, qr, hn', hl, hr, hq⟩⟩ :=
    leavesAt_cases (leavesAt_eq_triplesAt h hlt path)
  · cases hn.symm.trans hn'
  · cases hn.symm.trans hn'
    have hl := leavesAt_fuel hl
    have hr := leavesAt_fuel hr
    rw [← hk] at hl hr
    rw [hq, triplesAt, triplesAt, hl, hr, Option.getD_some, Option.getD_some]

/-- R143, R144: outside TREE the sequence is empty. -/
theorem seq_of_not_tree {s : State} (hp : s.phase ≠ .tree) : s.seq = some [] := by
  delta State.seq
  split
  · next h => exact absurd h hp
  · rfl

/-- R143: in TREE the sequence is the recursion from the root, within the arena's fuel. -/
theorem seq_of_tree {s : State} (hp : s.phase = .tree) : s.seq = leavesAt s.nodes s.nodes.length s.root [] := by
  delta State.seq
  rw [hp]

/-- R45: in phase TREE the root is an allocated node. -/
theorem root_lt {s : State} (h : BuilderInv s) (hp : s.phase = .tree) : s.root.toNat < s.nodes.length := by
  obtain ⟨-, hroot⟩ := phaseOk_tree h.phase hp
  omega

/-- R143: under the invariant the sequence of a tree is its root's triples. -/
theorem seq_eq_triplesAt {s : State} (h : BuilderInv s) (hp : s.phase = .tree) :
    s.seq = some (triplesAt s.nodes s.root []) := by
  rw [seq_of_tree hp, leavesAt_eq_triplesAt h (root_lt h hp)]

/-- R143, R144: under the invariant there is a leaf sequence in every phase. -/
theorem seq_exists {s : State} (h : BuilderInv s) : ∃ q, s.seq = some q := by
  by_cases hp : s.phase = .tree
  · exact ⟨_, seq_eq_triplesAt h hp⟩
  · exact ⟨_, seq_of_not_tree hp⟩

/-- R118: with one member left, `2 * nleaf - 1` nodes are allocated, and the root is the last. -/
theorem root_of_tree {s : State} (h : BuilderInv s) (hp : s.phase = .tree) : s.root.toNat + 2 = 2 * s.nleaf.toNat := by
  obtain ⟨hact, hroot⟩ := phaseOk_tree h.phase hp
  have hsize := h.size
  rw [hact, List.length_singleton] at hsize
  omega

/-- R149: an unchanged tree has an unchanged sequence. -/
theorem seq_of_sameTree {s t : State} (h : sameTree s t) : t.seq = s.seq := by
  obtain ⟨hnodes, -, -, hroot, -, hphase⟩ := h
  exact seq_congr hnodes hroot hphase

/-! ### The triples against the leaves of the arena (R145) -/

/-- R143: a triple without its code, as `Node.leafPair` is a leaf's. -/
def Triple.leafPair (t : Triple) : Sym × Word := (t.sym, t.count)

/-- R143: the symbols and counts of the leaves below a node, depth first. -/
def leafPairsAt (nodes : List Node) (n : NodeIdx) : List (Sym × Word) := (triplesAt nodes n []).map Triple.leafPair

/-- R143: the symbols and counts below a record: its own for a leaf, those below its children for an internal node. -/
def Node.leafPairsBelow (nodes : List Node) : Node → List (Sym × Word)
  | .leaf sym c => [(sym, c)]
  | .internal _ l r => leafPairsAt nodes l ++ leafPairsAt nodes r

/-- The path a node is reached by is in the codes only, by induction on the index: children lie below their parent. -/
theorem triplesAt_leafPair {s : State} (h : BuilderInv s) (k : Nat) {n : NodeIdx} {x : Node} (hk : n.toNat < k)
    (hn : nodeAt s.nodes n = some x) (path : List Bool) :
    (triplesAt s.nodes n path).map Triple.leafPair = leafPairsAt s.nodes n := by
  induction k generalizing n x path with
  | zero => omega
  | succ k ih =>
    cases x with
    | leaf sym c => rw [leafPairsAt, triplesAt_leaf h hn, triplesAt_leaf h hn]; rfl
    | internal c l r =>
      obtain ⟨nl, nr, hnl, hnr, hl, hr, -⟩ := children_allocated h hn
      have hleft := ih (n := l) (by omega) hnl
      have hright := ih (n := r) (by omega) hnr
      rw [leafPairsAt, triplesAt_internal h hn, triplesAt_internal h hn, List.map_append, List.map_append, hleft, hleft,
        hright, hright]

/-- The symbols and counts below an index are those below its record. -/
theorem leafPairsAt_of_nodeAt {s : State} (h : BuilderInv s) {n : NodeIdx} {x : Node} (hn : nodeAt s.nodes n = some x) :
    leafPairsAt s.nodes n = x.leafPairsBelow s.nodes := by
  cases x with
  | leaf sym c => rw [leafPairsAt, triplesAt_leaf h hn]; rfl
  | internal c l r =>
    obtain ⟨nl, nr, hnl, hnr, -⟩ := children_allocated h hn
    rw [leafPairsAt, triplesAt_internal h hn, List.map_append, triplesAt_leafPair h _ (Nat.lt_succ_self _) hnl,
      triplesAt_leafPair h _ (Nat.lt_succ_self _) hnr, Node.leafPairsBelow]

/-- What lies below all records is what lies below all their children, and the leaves among the records. -/
theorem leafPairsBelow_perm (all nodes : List Node) :
    (nodes.flatMap (Node.leafPairsBelow all)).Perm
      ((nodes.flatMap Node.children).flatMap (leafPairsAt all) ++ nodes.filterMap Node.leafPair) := by
  induction nodes with
  | nil => rfl
  | cons x xs ih =>
    cases x with
    | leaf sym c => exact (ih.cons (sym, c)).trans List.perm_middle.symm
    | internal c l r =>
      simpa [Node.leafPairsBelow, Node.children, List.filterMap_cons, Node.leafPair, List.perm_append_left_iff] using ih

/-- What lies below a list of indices that is some order of all indices is what lies below all records. -/
theorem flatMap_leafPairsAt_perm {s : State} (h : BuilderInv s) {idxs : List NodeIdx}
    (hidxs : (idxs.map BitVec.toNat).Perm (List.range s.nodes.length)) :
    (idxs.flatMap (leafPairsAt s.nodes)).Perm (s.nodes.flatMap (Node.leafPairsBelow s.nodes)) := by
  have hrange : (List.range s.nodes.length).map (fun i => leafPairsAt s.nodes (BitVec.ofNat 9 i)) =
      s.nodes.map (Node.leafPairsBelow s.nodes) := by
    refine List.ext_getElem (by simp) fun i h1 h2 => ?_
    have hi : i < s.nodes.length := by simpa using h2
    have hidx : (BitVec.ofNat 9 i).toNat = i := by
      have := (nodes_length_le h).1
      rw [BitVec.toNat_ofNat]
      omega
    have hn : nodeAt s.nodes (BitVec.ofNat 9 i) = some s.nodes[i] := nodeAt_eq_some_iff.mpr ⟨by omega, by simp [hidx]⟩
    simpa using leafPairsAt_of_nodeAt h hn
  have hmap : idxs.map (leafPairsAt s.nodes) =
      (idxs.map BitVec.toNat).map fun i => leafPairsAt s.nodes (BitVec.ofNat 9 i) := by simp
  rw [List.flatMap_def, List.flatMap_def, hmap, ← hrange]
  exact (hidxs.map _).flatten

/-- R145: the leaves of the arena are those below the members of the Active Set: every other node is a child once, so what
lies below the children cancels. -/
theorem act_leafPairs_perm {s : State} (h : BuilderInv s) :
    (s.act.flatMap (leafPairsAt s.nodes)).Perm (s.nodes.filterMap Node.leafPair) := by
  have hall := flatMap_leafPairsAt_perm h (idxs := s.nodes.flatMap Node.children ++ s.act)
    (by simpa [childRefs] using h.forest)
  rw [List.flatMap_append] at hall
  exact (List.perm_append_left_iff _).mp (hall.trans (leafPairsBelow_perm s.nodes s.nodes))

/-- R145: the triples of the sequence are the leaves of the arena in another order. -/
theorem seq_leafPairs_perm {s : State} (h : BuilderInv s) (hp : s.phase = .tree) {q : List Triple} (hq : s.seq = some q) :
    (q.map Triple.leafPair).Perm (s.nodes.filterMap Node.leafPair) := by
  obtain ⟨hact, -⟩ := phaseOk_tree h.phase hp
  cases hq.symm.trans (seq_eq_triplesAt h hp)
  simpa [hact, leafPairsAt] using act_leafPairs_perm h

/-- R118: there are `nleaf` leaf records. -/
theorem leafPairs_length {s : State} (h : BuilderInv s) : (s.nodes.filterMap Node.leafPair).length = s.nleaf.toNat := by
  obtain ⟨hleaves, -⟩ := leaves_internals h
  rw [hleaves, List.length_filterMap_eq_countP, List.countP_eq_length_filter]
  congr 2
  funext x
  cases x <;> rfl

/-- A leaf's symbol is the first of its pair. -/
theorem leafPairs_fst (nodes : List Node) : (nodes.filterMap Node.leafPair).map Prod.fst = nodes.filterMap Node.leafSym := by
  rw [List.map_filterMap]
  congr 1
  funext x
  cases x <;> rfl

/-- R145: in TREE the sequence has one triple for each leaf. -/
theorem seq_length {s : State} (h : BuilderInv s) (hp : s.phase = .tree) {q : List Triple} (hq : s.seq = some q) :
    q.length = s.nleaf.toNat := by
  rw [← leafPairs_length h, ← (seq_leafPairs_perm h hp hq).length_eq, List.length_map]

/-- R145, R33: the sequence has at most 256 triples. -/
theorem seq_length_le {s : State} (h : BuilderInv s) {q : List Triple} (hq : s.seq = some q) : q.length ≤ 256 := by
  by_cases hp : s.phase = .tree
  · rw [seq_length h hp hq]
    exact h.leaves
  · cases hq.symm.trans (seq_of_not_tree hp)
    exact Nat.zero_le _

/-- R105, R145: no two triples have the same symbol. -/
theorem seq_syms_nodup {s : State} (h : BuilderInv s) (hp : s.phase = .tree) {q : List Triple} (hq : s.seq = some q) :
    (q.map Triple.sym).Nodup := by
  have hperm := (seq_leafPairs_perm h hp hq).map Prod.fst
  rw [List.map_map, leafPairs_fst] at hperm
  refine hperm.nodup_iff.mpr (List.Nodup.of_map BitVec.toNat ?_)
  exact h.symbols.imp Nat.ne_of_lt

/-- R119, R145: the counts of the sequence sum to `total`. -/
theorem seq_counts_sum {s : State} (h : BuilderInv s) (hp : s.phase = .tree) {q : List Triple} (hq : s.seq = some q) :
    (q.map fun t => t.count.toNat).sum = s.total.toNat := by
  have hperm := (seq_leafPairs_perm h hp hq).map fun p => p.2.toNat
  rw [List.map_map] at hperm
  exact hperm.sum_eq.trans ((activeTotal_eq_leaves h).trans h.sum)

/-! ### The codes (R146 to R148) -/

/-- R146: no code is longer than `nleaf - 1`, the number of internal nodes. -/
theorem seq_code_length_lt_nleaf {s : State} (h : BuilderInv s) {q : List Triple} (hq : s.seq = some q) :
    ∀ t ∈ q, t.code.length ≤ s.nleaf.toNat - 1 := by
  intro t ht
  by_cases hp : s.phase = .tree
  · have hlen := leavesAt_code_length h ((seq_of_tree hp).symm.trans hq) t ht
    have hroot := root_of_tree h hp
    rw [List.length_nil] at hlen
    omega
  · cases hq.symm.trans (seq_of_not_tree hp)
    cases ht

/-- R147: with two or more leaves the root is internal, so every code begins with the choice at the root. -/
theorem seq_code_pos {s : State} (h : BuilderInv s) (hp : s.phase = .tree) (hL : 2 ≤ s.nleaf.toNat) {q : List Triple}
    (hq : s.seq = some q) : ∀ t ∈ q, 1 ≤ t.code.length := by
  have hroot := root_of_tree h hp
  obtain ⟨k, -, ⟨sym, c, hn, -⟩ | ⟨c, l, r, ql, qr, -, hl, hr, rfl⟩⟩ :=
    leavesAt_cases ((seq_of_tree hp).symm.trans hq)
  · obtain ⟨hlt, -⟩ := nodeOk_of_nodeAt h hn
    omega
  · intro t ht
    rcases List.mem_append.mp ht with ht | ht
    · exact (leavesAt_path hl t ht).length_le
    · exact (leavesAt_path hr t ht).length_le

/-- R148: of two codes that part at a node, the one does not begin the other. -/
theorem not_prefix_of_parted {path t u : List Bool} {b c : Bool} (hbc : b ≠ c) (ht : path ++ [b] <+: t)
    (hu : path ++ [c] <+: u) : ¬ t <+: u := by
  intro htu
  have hlen : (path ++ [b]).length = (path ++ [c]).length := by simp
  have heq := (List.prefix_of_prefix_length_le (ht.trans htu) hu hlen.le).eq_of_length hlen
  exact hbc (List.singleton_injective (List.append_cancel_left heq))

/-- R148: below any node no code begins another: two leaves' paths part at some internal node. -/
theorem leavesAt_prefixFree {nodes : List Node} {fuel : Nat} {n : NodeIdx} {path : List Bool} {q : List Triple}
    (h : leavesAt nodes fuel n path = some q) :
    q.Pairwise fun t u => ¬ t.code <+: u.code ∧ ¬ u.code <+: t.code := by
  induction fuel generalizing n path q with
  | zero => simp [leavesAt] at h
  | succ k ih =>
    obtain ⟨j, hj, ⟨sym, c, -, rfl⟩ | ⟨c, l, r, ql, qr, -, hl, hr, rfl⟩⟩ := leavesAt_cases h
    · exact List.pairwise_singleton _ _
    · cases hj
      refine List.pairwise_append.mpr ⟨ih hl, ih hr, fun t ht u hu => ?_⟩
      have htp := leavesAt_path hl t ht
      have hup := leavesAt_path hr u hu
      exact ⟨not_prefix_of_parted Bool.false_ne_true htp hup, not_prefix_of_parted Bool.false_ne_true.symm hup htp⟩

/-- R146: the 8 bits of OUT_LEN keep the length of a path that fits. -/
theorem codeLength_toNat {bs : List Bool} (h : bs.length ≤ Config.maxCode) :
    (BitVec.ofNat 8 bs.length).toNat = bs.length :=
  Nat.mod_eq_of_lt (Nat.lt_succ_of_le h)

/-! ### The commands' rules (R141, R142) -/

/-- R141: EXT_START of a finished or empty tree. -/
theorem exec_extStart_begin {s : State} (hp : s.phase = .tree ∨ s.phase = .empty) :
    exec .extStart s = .next (extBegin s) := by
  delta exec execExtStart
  dsimp only
  rcases hp with hp | hp <;> rw [hp]

/-- R141: EXT_START without a finished tree is a SEQUENCE error. -/
theorem exec_extStart_refused {s : State} (hp : s.phase = .none ∨ s.phase = .seeded) :
    exec .extStart s = .next (raiseError .sequence (encode .extStart) s) := by
  delta exec execExtStart
  dsimp only
  rcases hp with hp | hp <;> rw [hp]

/-- R142: EXT_NEXT of an inactive extractor is a SEQUENCE error. -/
theorem exec_extNext_inactive {s : State} (ha : s.extActive = false) :
    exec .extNext s = .next (raiseError .sequence (encode .extNext) s) :=
  if_neg (by simp [ha])

/-- R142: EXT_NEXT before the end latches the triple at `ext_idx`. -/
theorem exec_extNext_triple {s : State} (ha : s.extActive = true) {q : List Triple} (hq : s.seq = some q) {tr : Triple}
    (htr : q[s.extIdx.toNat]? = some tr) : exec .extNext s = .next (latchTriple tr s) := by
  delta exec execExtNext
  dsimp only
  rw [if_pos ha, hq]
  dsimp only
  rw [htr]

/-- R142: EXT_NEXT past the last triple reports the end. -/
theorem exec_extNext_end {s : State} (ha : s.extActive = true) {q : List Triple} (hq : s.seq = some q)
    (hend : q.length ≤ s.extIdx.toNat) : exec .extNext s = .next (reportEnd s) := by
  delta exec execExtNext
  dsimp only
  rw [if_pos ha, hq]
  dsimp only
  rw [List.getElem?_eq_none_iff.mpr hend]

/-- R144: in EMPTY the EXT_NEXT after an EXT_START reports the end. -/
theorem exec_extNext_after_begin {s : State} (hp : s.phase = .empty) :
    exec .extNext (extBegin s) = .next (reportEnd (extBegin s)) :=
  exec_extNext_end rfl (seq_of_not_tree (by simp [hp])) (Nat.zero_le _)

/-! ### Every step keeps the extractor's invariant (R140) -/

/-- R100: a clear extractor meets its invariant. -/
theorem extractorInv_of_clear {s : State} (h : extractorClear s) : extractorInv s := by
  obtain ⟨ha, hclear⟩ := h
  delta extractorInv
  rwa [if_neg (by simp [ha])]

/-- R140: the extractor's invariant reads the tree and the extractor alone. -/
theorem extractorInv_of_same {s t : State} (htree : sameTree s t) (hext : sameExtractor s t) (h : extractorInv s) :
    extractorInv t := by
  cases t
  obtain ⟨rfl, rfl, rfl, rfl, rfl, rfl⟩ := htree
  obtain ⟨rfl, rfl, rfl, rfl, rfl, rfl, rfl, rfl⟩ := hext
  exact h

/-- R140: an inactive extractor is clear. -/
theorem extractorClear_of_inactive {s : State} (h : extractorInv s) (ha : s.extActive = false) : extractorClear s := by
  delta extractorInv at h
  rw [if_neg (by simp [ha])] at h
  exact ⟨ha, h⟩

/-- R140, R142: an active extractor stands within the sequence of a finished or empty tree. -/
theorem active_position {s : State} (h : extractorInv s) (ha : s.extActive = true) :
    (s.phase = .tree ∨ s.phase = .empty) ∧ (∃ q, s.seq = some q ∧ s.extIdx.toNat ≤ q.length) ∧
      ¬ (s.extValid = true ∧ s.extEnd = true) := by
  delta extractorInv at h
  rw [if_pos ha] at h
  obtain ⟨hp, q, hq, ⟨hv, -, hidx, -⟩ | ⟨-, he, k, tr, hk, htr, -⟩ | ⟨hv, -, hidx, -⟩⟩ := h
  · exact ⟨hp, ⟨q, hq, by simp [hidx]⟩, by simp [hv]⟩
  · obtain ⟨hlt, -⟩ := List.getElem?_eq_some_iff.mp htr
    exact ⟨hp, ⟨q, hq, by omega⟩, by simp [he]⟩
  · exact ⟨hp, ⟨q, hq, hidx.le⟩, by simp [hv]⟩

/-- R141: EXT_START meets the extractor's invariant. -/
theorem extBegin_extractor {s : State} (hb : BuilderInv s) (hp : s.phase = .tree ∨ s.phase = .empty) :
    extractorInv (extBegin s) := by
  obtain ⟨q, hq⟩ := seq_exists hb
  delta extractorInv
  rw [if_pos (extBegin_extActive s)]
  exact ⟨hp, q, hq, .inl ⟨rfl, rfl, rfl, rfl, rfl, rfl, rfl⟩⟩

/-- R142: a position before the end of the sequence is advanced without a wrap of the 9 bits. -/
theorem extIdx_succ {s : State} (hb : BuilderInv s) {q : List Triple} (hq : s.seq = some q) {tr : Triple}
    (htr : q[s.extIdx.toNat]? = some tr) : (s.extIdx + 1).toNat = s.extIdx.toNat + 1 := by
  obtain ⟨hlt, -⟩ := List.getElem?_eq_some_iff.mp htr
  have := seq_length_le hb hq
  rw [BitVec.toNat_add]
  exact Nat.mod_eq_of_lt (by simp; omega)

/-- R142: latching the next triple keeps the extractor's invariant. -/
theorem latchTriple_extractor {s : State} (hb : BuilderInv s) (h : extractorInv s) (ha : s.extActive = true)
    {q : List Triple} (hq : s.seq = some q) {tr : Triple} (htr : q[s.extIdx.toNat]? = some tr) :
    extractorInv (latchTriple tr s) := by
  obtain ⟨hp, -⟩ := active_position h ha
  delta extractorInv
  rw [if_pos (show (latchTriple tr s).extActive = true from ha)]
  exact ⟨hp, q, hq, .inr (.inl ⟨rfl, rfl, _, tr, extIdx_succ hb hq htr, htr, rfl, rfl, rfl, rfl⟩)⟩

/-- R142: reporting the end keeps the extractor's invariant. -/
theorem reportEnd_extractor {s : State} (h : extractorInv s) (ha : s.extActive = true) {q : List Triple}
    (hq : s.seq = some q) (hend : q.length ≤ s.extIdx.toNat) : extractorInv (reportEnd s) := by
  obtain ⟨hp, ⟨q', hq', hidx⟩, -⟩ := active_position h ha
  cases hq.symm.trans hq'
  delta extractorInv
  rw [if_pos (show (reportEnd s).extActive = true from ha)]
  exact ⟨hp, q, hq, .inr (.inr ⟨rfl, rfl, Nat.le_antisymm hidx hend, rfl, rfl, rfl, rfl⟩)⟩

/-- R149: what EXT_START and EXT_NEXT leave alone. -/
theorem exec_extractor_readOnly {s t : State} {i : Instr} (hi : i = .extStart ∨ i = .extNext)
    (he : exec i s = .next t) : sameTree s t ∧ t.freq = s.freq := by
  rcases hi with rfl | rfl
  · rcases execExtStart_cases he with ⟨-, rfl⟩ | ⟨-, rfl⟩ <;> simp [sameTree]
  · rcases execExtNext_cases he with ⟨-, rfl⟩ | ⟨-, q, -, ⟨tr, -, rfl⟩ | ⟨-, rfl⟩⟩ <;> simp [sameTree]

/-- R103: seeding clears the extractor. -/
theorem seedBody_extractorClear (w : Word) (s : State) : extractorClear (seedBody w s) := by
  rcases seedBody_cases w s with ⟨-, e⟩ | ⟨-, e⟩ <;> rw [e] <;> simp [extractorClear, outZero]

/-- R140: what a step from `s` to `t` must do about the extractor: meet its invariant, and keep the tree of an extractor that
stays active. -/
def extractorKept (s t : State) : Prop :=
  extractorInv t ∧ (s.extActive = true → t.extActive = true → sameTree s t)

/-- A step that leaves the extractor clear keeps it. -/
theorem extractorKept_of_clear {s t : State} (ht : extractorClear t) : extractorKept s t := by
  refine ⟨extractorInv_of_clear ht, fun _ ha => ?_⟩
  obtain ⟨hf, -⟩ := ht
  rw [ha] at hf
  cases hf

/-- A step that writes neither the tree nor the extractor keeps it. -/
theorem extractorKept_of_same {s t : State} (htree : sameTree s t) (hext : sameExtractor s t) (h : extractorInv s) :
    extractorKept s t :=
  ⟨extractorInv_of_same htree hext h, fun _ _ => htree⟩

/-- A step that changes nothing keeps the extractor. -/
theorem extractorKept_refl {s : State} (h : extractorInv s) : extractorKept s s :=
  extractorKept_of_same (by simp [sameTree]) (by simp [sameExtractor]) h

/-- R109: a merge runs in phase SEEDED only, where the extractor is inactive, and does not write it. -/
theorem mergeOnce_keeps_extractor {s t : State} (h : extractorInv s) (hp : s.phase = .seeded)
    (hm : mergeOnce s = some t) : extractorKept s t := by
  have ha : s.extActive = false := by
    by_contra ha
    obtain ⟨hp', -⟩ := active_position h (by simpa using ha)
    simp [hp] at hp'
  have hclear := extractorClear_of_inactive h ha
  rw [mergeOnce_frame hm]
  exact extractorKept_of_clear hclear

/-- R140: every command keeps the extractor. -/
theorem exec_keeps_extractor {i : Instr} {s t : State} (hb : BuilderInv s) (h : extractorInv s)
    (he : exec i s = .next t) : extractorKept s t := by
  cases i with
  | nop => cases he; exact extractorKept_refl h
  | clearFreq => cases he; exact extractorKept_of_same (by simp [sameTree]) (by simp [sameExtractor]) h
  | seed => cases he; exact extractorKept_of_clear (seedBody_extractorClear _ s)
  | merge =>
    rcases execMerge_cases he with ⟨-, rfl⟩ | ⟨hp, hm⟩ | ⟨-, rfl⟩
    · exact extractorKept_of_same (by simp [sameTree]) (by simp [sameExtractor]) h
    · exact mergeOnce_keeps_extractor h hp hm
    · exact extractorKept_refl h
  | build =>
    rw [mergeLoop_frame (execBuild_cases he)]
    exact extractorKept_of_clear (seedBody_extractorClear (encode .build) s)
  | extStart =>
    refine ⟨?_, fun _ _ => (exec_extractor_readOnly (.inl rfl) he).1⟩
    rcases execExtStart_cases he with ⟨-, rfl⟩ | ⟨hp, rfl⟩
    · exact extractorInv_of_same (by simp [sameTree]) (by simp [sameExtractor]) h
    · exact extBegin_extractor hb hp
  | extNext =>
    refine ⟨?_, fun _ _ => (exec_extractor_readOnly (.inr rfl) he).1⟩
    rcases execExtNext_cases he with ⟨-, rfl⟩ | ⟨ha, q, hq, ⟨tr, htr, rfl⟩ | ⟨hend, rfl⟩⟩
    · exact extractorInv_of_same (by simp [sameTree]) (by simp [sameExtractor]) h
    · exact latchTriple_extractor hb h ha hq htr
    · exact reportEnd_extractor h ha hq hend

/-- R190: the reset values are those of a clear extractor. -/
theorem holdReset_extractorClear (s : State) : extractorClear (holdReset s) := ⟨rfl, rfl, rfl, rfl, rfl, rfl, rfl, rfl⟩

/-- R84, R191: the engine's turn keeps the extractor. -/
theorem engineTurn_keeps_extractor {s t : State} (hb : BuilderInv s) (h : extractorInv s)
    (he : engineTurn s = .next t) : extractorKept s t := by
  rcases engineTurn_cases he with ⟨-, rfl⟩ | ⟨-, -, hc⟩ | ⟨-, -, rfl⟩
  · exact extractorKept_of_clear (holdReset_extractorClear s)
  · obtain ⟨u, rfl, ⟨i, -, hu⟩ | ⟨r, -, rfl⟩⟩ := engineComplete_cases hc
    · obtain ⟨hext, htree⟩ := exec_keeps_extractor hb h hu
      exact ⟨extractorInv_of_same (by simp [sameTree]) (by simp [sameExtractor]) hext, htree⟩
    · exact extractorKept_of_same (by simp [sameTree]) (by simp [sameExtractor]) h
  · exact extractorKept_refl h

/-- R61: no transaction reaches the extractor. -/
theorem busStep_sameExtractor (op : BusOp) (s : State) : sameExtractor s (busStep op s) := by
  rcases busStep_cases op s with ⟨ans, d, e⟩ | ⟨a, w, -, -, e⟩
  · rw [e]
    simp [sameExtractor]
  · rw [e]
    rcases writeReg_cases a w s with e | e | e | ⟨-, e⟩ | ⟨-, e | e | e | ⟨sym, e⟩⟩ <;> rw [e] <;> simp [sameExtractor]

/-- R140: every step keeps the extractor. -/
theorem step_keeps_extractor {s t : State} (hb : BuilderInv s) (h : extractorInv s) (hs : step s = .next t) :
    extractorKept s t := by
  obtain ⟨s0, hs0, hturn⟩ := step_cases hs
  have hinputs : ∃ ins, s0 = { s with inputs := ins } := by
    rcases hs0 with ⟨-, rfl⟩ | ⟨i, rest, -, rfl⟩
    · exact ⟨s0.inputs, rfl⟩
    · exact ⟨rest, rfl⟩
  obtain ⟨ins, rfl⟩ := hinputs
  have hb0 : BuilderInv { s with inputs := ins } := builder_of_sameTree (by simp [sameTree]) hb
  rcases hturn with ⟨-, he⟩ | ⟨op, rest, -, -, rfl⟩ | ⟨rest, -, rfl⟩ | ⟨rest, -, rfl⟩
  · exact engineTurn_keeps_extractor (s := { s with inputs := ins }) hb0 h he
  · exact extractorKept_of_same (busStep_sameTree op _) (busStep_sameExtractor op _) h
  · exact extractorKept_of_clear (holdReset_extractorClear _)
  · exact extractorKept_of_same (by simp [sameTree]) (by simp [sameExtractor]) h

/-! ### The claims -/

/-- Settles O31: one clause for each pair of arms of EXT_START; in EMPTY the sequence is empty. -/
theorem extStartByPhase : Obligations.ExtStartByPhase := by
  refine ⟨decode_encode .extStart, fun s => ⟨fun hp => ?_, fun hp => ?_, fun hp => ?_⟩⟩
  · refine ⟨_, exec_extStart_begin hp, ?_⟩
    simp [outZero, sameTree, sameError, sameControl]
  · have he := exec_extStart_refused hp
    exact ⟨_, he, raiseError_recorded .sequence (encode .extStart) s,
      raiseError_results .sequence (encode .extStart) s, exec_control he⟩
  · exact ⟨_, _, exec_extStart_begin (.inr hp), exec_extNext_after_begin hp, rfl, rfl⟩

/-- Settles O34: outside TREE there is no triple, so the first EXT_NEXT is past the last. -/
theorem emptyTreeExtractsNothing : Obligations.EmptyTreeExtractsNothing := by
  intro s hp
  refine ⟨seq_of_not_tree (by simp [hp]), _, _, exec_extStart_begin (.inr hp), ?_, exec_extNext_after_begin hp, ?_⟩ <;>
    simp [sameError]

/-- Settles O39: neither command writes the tree, and the sequence reads nothing else. -/
theorem extractionIsReadOnly : Obligations.ExtractionIsReadOnly := by
  intro s t i hi he
  obtain ⟨htree, hfreq⟩ := exec_extractor_readOnly hi he
  exact ⟨htree, hfreq, seq_of_sameTree htree⟩

/-- Settles O32: one clause for each outcome of EXT_NEXT; a code of the sequence fits in the output registers. -/
theorem extNextPullsTheNextTriple : Obligations.ExtNextPullsTheNextTriple := by
  refine ⟨decode_encode .extNext, fun s => ⟨fun ha => ?_, fun hinv ha => ?_⟩⟩
  · have he := exec_extNext_inactive ha
    exact ⟨_, he, raiseError_recorded .sequence (encode .extNext) s, raiseError_results .sequence (encode .extNext) s,
      exec_control he⟩
  · obtain ⟨q, hq⟩ := seq_exists hinv.builder
    refine ⟨q, hq, fun tr htr => ?_, fun hend => ?_⟩
    · have hfits := seq_code_length hinv.builder hq tr (List.mem_of_getElem? htr)
      refine ⟨_, exec_extNext_triple ha hq htr, rfl, codeLength_toNat hfits, rfl,
        codeReg_getLsbD_of_fits hfits, rfl, rfl, extIdx_succ hinv.builder hq htr, ha, ?_⟩
      simp [sameTree, sameError, sameControl]
    · refine ⟨_, exec_extNext_end ha hq hend, ?_⟩
      simp [outZero, ha, sameTree, sameError, sameControl]

/-- Settles O33: the function is `triplesAt`. -/
theorem leafSequenceIsDepthFirst : Obligations.LeafSequenceIsDepthFirst :=
  fun s hinv => ⟨seq_of_not_tree, children_lt hinv.builder, fun hp =>
    ⟨triplesAt s.nodes, fun _ path _ _ hn => triplesAt_leaf hinv.builder hn path,
      fun _ path _ _ _ hn => triplesAt_internal hinv.builder hn path, seq_eq_triplesAt hinv.builder hp⟩⟩

/-- Settles O35: the triples are the leaves of the arena in another order. -/
theorem everyLeafExactlyOnce : Obligations.EveryLeafExactlyOnce := by
  intro s hinv hp
  have h := hinv.builder
  obtain ⟨q, hq⟩ := seq_exists h
  exact ⟨q, hq, seq_length h hp hq, seq_leafPairs_perm h hp hq, seq_syms_nodup h hp hq, seq_counts_sum h hp hq,
    fun ha tr htr => ⟨_, exec_extNext_triple ha hq htr, rfl, rfl, rfl, rfl⟩⟩

/-- Settles O36: a path has at most one bit for each of the `nleaf - 1` internal nodes. -/
theorem codesFitTheOutputRegisters : Obligations.CodesFitTheOutputRegisters := by
  intro s q hinv hq tr htr
  have hfits := seq_code_length hinv.builder hq tr htr
  refine ⟨seq_code_length_lt_nleaf hinv.builder hq tr htr, hfits, codeLength_toNat hfits,
    fun j hj => ?_, fun j hj => ?_⟩
  · rw [codeReg_getLsbD_of_fits hfits, List.getD_eq_getElem _ _ hj]
  · rw [codeReg_getLsbD_of_fits hfits, List.getD_eq_default _ _ hj]

/-- Settles O37: with one leaf there is one triple, of no bits; with more the root is internal. -/
theorem singleLeafHasTheEmptyCode : Obligations.SingleLeafHasTheEmptyCode := by
  intro s hinv hp
  have h := hinv.builder
  obtain ⟨q, hq⟩ := seq_exists h
  refine ⟨q, hq, fun hone => ?_, fun hL => seq_code_pos h hp hL hq⟩
  obtain ⟨⟨sym, code, c⟩, rfl⟩ := List.length_eq_one_iff.mp ((seq_length h hp hq).trans hone)
  have hcode := seq_code_length_lt_nleaf h hq _ List.mem_cons_self
  rw [hone, Nat.le_zero, List.length_eq_zero_iff] at hcode
  exact ⟨sym, c, by rw [← hcode], rfl⟩

/-- Settles O38: two leaves' paths part at an internal node. -/
theorem codesArePrefixFree : Obligations.CodesArePrefixFree := by
  intro s q hinv hp hq _
  have hfree := leavesAt_prefixFree ((seq_of_tree hp).symm.trans hq)
  refine ⟨fun i j t u hij ht hu => ?_, ?_⟩
  · obtain ⟨hi, rfl⟩ := List.getElem?_eq_some_iff.mp ht
    obtain ⟨hj, rfl⟩ := List.getElem?_eq_some_iff.mp hu
    rw [List.pairwise_iff_getElem] at hfree
    rcases Nat.lt_or_gt_of_ne hij with hlt | hlt
    · exact (hfree _ _ hi hj hlt).1
    · exact (hfree _ _ hj hi hlt).2
  · refine List.pairwise_map.mpr (hfree.imp fun hne heq => hne.1 ?_)
    rw [heq]

/-- Settles O40: the state after the step meets the extractor's invariant, and an extractor that stays active keeps its
tree. -/
theorem activeExtractorKeepsItsTree : Obligations.ActiveExtractorKeepsItsTree := by
  intro s t hinv hs ha
  obtain ⟨hext, hkeep⟩ := step_keeps_extractor hinv.builder hinv.extractor hs
  obtain ⟨hp, hpos, hflags⟩ := active_position hext ha
  exact ⟨hp, fun hsa => ⟨hkeep hsa ha, seq_of_sameTree (hkeep hsa ha)⟩, hpos, hflags⟩

end Sys2Proof.Machine
end

section
/-! PROOF. The interrupt output (60_exceptions.md rule R170): the level as a function of two causes and two enables, the two
ways software takes it down, and the claim on top of them. -/

namespace Sys2Proof.Machine

open Sys2Proof

/-! ### The level (R170) -/

/-- R170: the output is asserted while an enabled cause is pending. -/
theorem irq_iff (s : State) :
    s.irq = true ↔ (s.ieDone = true ∧ s.done = true) ∨ (s.ieErr = true ∧ s.err = true) := by
  simp [State.irq]

/-- R170: with no cause pending the output is deasserted, whatever is enabled. -/
theorem irq_eq_false_of_causes_clear {s : State} (hdone : s.done = false) (herr : s.err = false) : s.irq = false := by
  simp [State.irq, hdone, herr]

/-- R170: with no cause enabled the output is deasserted, whatever is pending. -/
theorem irq_eq_false_of_enables_clear {s : State} (hdone : s.ieDone = false) (herr : s.ieErr = false) :
    s.irq = false := by
  simp [State.irq, hdone, herr]

/-! ### The claim -/

/-- Settles O44: a STATUS write takes the causes away, a CTRL write the enables. -/
theorem interruptLevel : Obligations.InterruptLevel := by
  refine ⟨irq_iff, ?reset, fun s hie => ?completion, fun s w hdone herr => ?clearCauses,
    fun s w hdone herr => ?clearEnables⟩
  case reset => exact irq_eq_false_of_causes_clear rfl rfl
  case completion => exact (irq_iff _).mpr (.inl ⟨hie, complete_done s⟩)
  case clearCauses =>
    rw [busWrite_full (by decide), writeReg_status (by decide)]
    exact irq_eq_false_of_causes_clear (by simp [hdone]) (by simp [herr])
  case clearEnables =>
    rw [busWrite_full (by decide), writeReg_ctrl (by decide)]
    exact irq_eq_false_of_enables_clear hdone herr

end Sys2Proof.Machine
end

section
/-! PROOF. Reset and the hazards of a rebuild (70_reset_and_hazards.md rules R190, R191 and R208): the register map read from its
offsets, the stored values after reset, the turns of the reset line, and the three claims on top of them. -/

namespace Sys2Proof.Machine

open Sys2Proof

/-! ### A rebuild (R208) -/

/-- R103, R112: SEED and BUILD complete whatever the table and the state before. -/
theorem exec_rebuild_completes (s : State) {i : Instr} (hi : i = .seed ∨ i = .build) : ∃ t, exec i s = .next t := by
  rcases hi with rfl | rfl
  · exact ⟨_, rfl⟩
  · by_cases hfits : fits s
    · obtain ⟨t, ht, -⟩ := exec_total_of_fits hfits (.inr rfl)
      exact ⟨t, ht⟩
    · exact ⟨_, exec_build_of_overflow hfits⟩

/-- R103, R112: the seeding clears the extractor, and the merges of BUILD do not write it. -/
theorem exec_rebuild_extractorClear {s t : State} {i : Instr} (hi : i = .seed ∨ i = .build) (he : exec i s = .next t) :
    extractorClear t := by
  rcases hi with rfl | rfl
  · cases he
    exact seedBody_extractorClear _ s
  · rw [mergeLoop_frame (execBuild_cases he)]
    exact seedBody_extractorClear (encode .build) s

/-! ### The stored values after reset (R190) -/

/-- R20: the offset listed for a register is aligned, and the register found there is that one. -/
theorem regAt_offset {r : Reg} {a : Addr} (h : r.offset = some a) : aligned a = true ∧ regAt a = r := by
  cases r with
  | freq sym =>
    cases h
    have hoff := freqOffset_toNat sym
    exact ⟨(aligned_iff _).mpr (by omega), regAt_freq hoff⟩
  | outCode k =>
    cases h
    exact outCode_offset k
  | reserved => cases h
  | _ =>
    cases h
    decide

/-- R190: every stored value but ID's is 0 after reset. -/
theorem readStored_reset {r : Reg} (hr : r ≠ .id) : readStored State.reset r = 0 := by
  cases r with
  | id => exact absurd rfl hr
  | outCode k => exact BitVec.extractLsb'_zero
  | nodeInfo => exact (nodeReadout_none (s := State.reset) rfl).1
  | nodeCount => exact (nodeReadout_none (s := State.reset) rfl).2
  | actEntry => exact actEntry_past (s := State.reset) (Nat.zero_le _)
  | freq sym => exact Vector.getElem_replicate sym.isLt
  | _ => rfl

/-! ### The turns of the reset line (R191) -/

/-- R70: a listed turn is taken with the turns after it still to come. -/
theorem step_listed {s : State} {i : Input} {rest : List Input} (h : s.inputs = i :: rest) :
    step s = takeTurn i { s with inputs := rest } := by
  delta step nextTurn
  rw [h]

/-- R191: the engine's turn while `rst` is asserted holds the reset values, a pending command or none. -/
theorem engineTurn_held {s : State} (hr : s.rst = true) : engineTurn s = .next (holdReset s) :=
  if_pos hr

/-! ### The claims -/

/-- Settles O41: a clear extractor is inactive. -/
theorem rebuildDisarmsTheExtractor : Obligations.RebuildDisarmsTheExtractor := by
  intro s i hi
  obtain ⟨t, ht⟩ := exec_rebuild_completes s hi
  have hclear := exec_rebuild_extractorClear hi ht
  exact ⟨t, _, ht, hclear, exec_extNext_inactive hclear.1, raiseError_recorded .sequence (encode .extNext) t,
    raiseError_results .sequence (encode .extNext) t⟩

/-- Settles O58: the block is idle after reset, so a read returns the stored value; with no node allocated NODE_INFO
is 0 for every selection. -/
theorem resetValues : Obligations.ResetValues := by
  refine ⟨readAnswer_idle rfl (r := .id) (by decide) (by decide), fun r a hr hoff => ?_, rfl, rfl, rfl, rfl,
    fun n => ?_, irq_eq_false_of_causes_clear rfl rfl⟩
  · obtain ⟨haligned, hreg⟩ := regAt_offset hoff
    rw [readAnswer_idle rfl haligned hreg, readStored_reset hr]
  · have hinfo := (nodeReadout_none (s := { State.reset with nodeSel := n }) rfl).1
    rw [readAnswer_idle rfl (r := .nodeInfo) (by decide) (by decide), readStored, hinfo]

/-- Settles O59: asserting `rst` and the engine's turns under it are `holdReset`; under the invariant the state in which
it is deasserted is one `holdReset` left. -/
theorem resetLine : Obligations.ResetLine := by
  refine fun s rest => ⟨fun hin => ?assert, fun hin hr => ?hold, fun hinv hin hr => ?deassert⟩
  case assert => exact ⟨s.answer, s.draws, step_listed hin⟩
  case hold => exact ⟨s.answer, s.draws, (step_listed hin).trans (engineTurn_held hr)⟩
  case deassert =>
    refine ⟨s.answer, s.draws, (step_listed hin).trans ?_⟩
    rw [hinv.reset hr]
    rfl

end Sys2Proof.Machine
end

section
/-! PROOF. Turns and steps under the invariant (20_memory.md rule R70, 30_encoding.md rules R84 and R85, 60_exceptions.md
rule R165, 70_reset_and_hazards.md rule R191): every command completes, what each turn does to the error record and the reset
line, and the claims on top of them. -/

namespace Sys2Proof.Machine

open Sys2Proof

/-! ### Every command completes (R84, R193) -/

/-- R108, R111: under the invariant MERGE completes in each phase. -/
theorem exec_merge_completes {s : State} (h : BuilderInv s) : ∃ t, exec .merge s = .next t := by
  cases hp : s.phase with
  | none => exact ⟨_, exec_merge_none hp⟩
  | seeded =>
    obtain ⟨t, -, ht, -⟩ := exec_merge_of_two h ((phase_seeded_iff h).mp hp)
    exact ⟨t, ht⟩
  | tree => exact ⟨_, exec_merge_done (.inl hp)⟩
  | empty => exact ⟨_, exec_merge_done (.inr hp)⟩

/-- R141: EXT_START completes in each phase. -/
theorem exec_extStart_completes (s : State) : ∃ t, exec .extStart s = .next t := by
  cases hp : s.phase with
  | none => exact ⟨_, exec_extStart_refused (.inl hp)⟩
  | seeded => exact ⟨_, exec_extStart_refused (.inr hp)⟩
  | tree => exact ⟨_, exec_extStart_begin (.inl hp)⟩
  | empty => exact ⟨_, exec_extStart_begin (.inr hp)⟩

/-- R142, R143: under the invariant EXT_NEXT completes, for there is a leaf sequence. -/
theorem exec_extNext_completes {s : State} (h : BuilderInv s) : ∃ t, exec .extNext s = .next t := by
  cases ha : s.extActive with
  | false => exact ⟨_, exec_extNext_inactive ha⟩
  | true =>
    obtain ⟨q, hq⟩ := seq_exists h
    cases htr : q[s.extIdx.toNat]? with
    | some tr => exact ⟨_, exec_extNext_triple ha hq htr⟩
    | none => exact ⟨_, exec_extNext_end ha hq (List.getElem?_eq_none_iff.mp htr)⟩

/-- R109, R131, R143: under the invariant every command completes. -/
theorem exec_completes {s : State} (h : BuilderInv s) (i : Instr) : ∃ t, exec i s = .next t := by
  cases i with
  | nop => exact ⟨_, rfl⟩
  | clearFreq => exact ⟨_, rfl⟩
  | seed => exact exec_rebuild_completes s (.inl rfl)
  | merge => exact exec_merge_completes h
  | build => exact exec_rebuild_completes s (.inr rfl)
  | extStart => exact exec_extStart_completes s
  | extNext => exact exec_extNext_completes h

/-- R192: the engine's turn of an idle block changes nothing. -/
theorem engineTurn_idle {s : State} (hr : s.rst = false) (hb : s.busy = false) : engineTurn s = .next s := by
  delta engineTurn
  rw [hr, hb]
  rfl

/-- R84: under the invariant the engine's turn gives a next state, whatever word is pending. -/
theorem engineTurn_completes {s : State} (h : BuilderInv s) : ∃ t, engineTurn s = .next t := by
  cases hr : s.rst with
  | true => exact ⟨_, engineTurn_held hr⟩
  | false =>
    cases hb : s.busy with
    | false => exact ⟨_, engineTurn_idle hr hb⟩
    | true =>
      cases hd : decode s.pending with
      | error r => exact ⟨_, engineTurn_illegal hr hb hd⟩
      | ok i =>
        obtain ⟨t, ht⟩ := exec_completes h i
        exact ⟨_, engineTurn_command hr hb hd ht⟩

/-- R84: with a command pending the engine's turn ends in the completion, before which the control state is as it was. -/
theorem engineTurn_busy_cases {s t : State} (hr : s.rst = false) (hb : s.busy = true) (h : engineTurn s = .next t) :
    ∃ u, t = complete u ∧ sameControl s u := by
  rcases engineTurn_cases h with ⟨hr', -⟩ | ⟨-, -, hc⟩ | ⟨-, hb', -⟩
  · simp [hr] at hr'
  · obtain ⟨u, rfl, ⟨i, -, hu⟩ | ⟨r, -, rfl⟩⟩ := engineComplete_cases hc
    · exact ⟨u, rfl, exec_control hu⟩
    · exact ⟨_, rfl, by simp [sameControl]⟩
  · simp [hb] at hb'

/-! ### Steps (R70) -/

/-- R84: where no turn is listed the step is the engine's. -/
theorem step_unlisted {s : State} (h : s.inputs = []) : step s = engineTurn s := by
  delta step nextTurn
  rw [h]

/-- R61: a transaction out of reset is performed. -/
theorem hostTurn_performed {s : State} (hr : s.rst = false) (op : BusOp) : hostTurn op s = .next (busStep op s) :=
  if_neg (by simp [hr])

/-- R191, U14: a transaction during reset is refused. -/
theorem hostTurn_refused {s : State} (hr : s.rst = true) (op : BusOp) : hostTurn op s = .refused .busDuringReset :=
  if_pos hr

/-- R109, R131, R143, R191: under the invariant a step gives a next state, but for a transaction during reset. -/
theorem step_outcome {s : State} (h : BuilderInv s) :
    (∃ t, step s = .next t) ∨
    (step s = .refused .busDuringReset ∧ s.rst = true ∧ ∃ op rest, s.inputs = .bus op :: rest) := by
  rcases hin : s.inputs with - | ⟨i, rest⟩
  · rw [step_unlisted hin]
    exact .inl (engineTurn_completes h)
  · rw [step_listed hin]
    cases i with
    | engine => exact .inl (engineTurn_completes (builder_of_sameTree (s := s) ⟨rfl, rfl, rfl, rfl, rfl, rfl⟩ h))
    | rst a => exact .inl ⟨_, rfl⟩
    | bus op =>
      rcases Bool.eq_false_or_eq_true s.rst with hr | hr
      · exact .inr ⟨hostTurn_refused (s := { s with inputs := rest }) hr op, hr, op, rest, rfl⟩
      · exact .inl ⟨_, hostTurn_performed (s := { s with inputs := rest }) hr op⟩

/-! ### The error record (R165, R169) -/

/-- R165: what a command, a turn or a transaction other than a STATUS write does to the error record. -/
inductive ErrorKept (s t : State) : Prop where
  /-- It leaves the record alone. -/
  | same (h : sameError s t)
  /-- It records an error with a code of its own. -/
  | recorded (code : ErrCode) (info : Word) (hne : code ≠ .none) (h : errorRecorded code info s t)

/-- R165: recording an error with a code of its own. -/
theorem errorKept_raise {code : ErrCode} (h : code ≠ .none) (info : Word) (s : State) :
    ErrorKept s (raiseError code info s) :=
  .recorded code info h (raiseError_recorded code info s)

/-- What does not write the error record afterwards does not matter to it. -/
theorem ErrorKept.trans_same {s t u : State} (h : ErrorKept s t) (hsame : sameError t u) : ErrorKept s u := by
  obtain ⟨herr, hcode, hinfo⟩ := hsame
  cases h with
  | same h => exact .same (by simpa only [sameError, herr, hcode, hinfo] using h)
  | recorded code info hne h =>
    exact .recorded code info hne (by simpa only [errorRecorded, sameError, herr, hcode, hinfo] using h)

/-- R169: an error on record stays. -/
theorem ErrorKept.sameError_of_err {s t : State} (h : ErrorKept s t) (he : s.err = true) : sameError s t := by
  cases h with
  | same h => exact h
  | recorded code info hne h => exact h.2 he

/-- R165: the error record stays in order. -/
theorem ErrorKept.errorInv {s t : State} (h : ErrorKept s t) (hs : errorInv s) : errorInv t := by
  have hsame : sameError s t → Machine.errorInv t := by
    rintro ⟨herr, hcode, hinfo⟩
    rwa [Machine.errorInv, herr, hcode, hinfo]
  cases h with
  | same h => exact hsame h
  | recorded code info hne h =>
    obtain ⟨hclear, hset⟩ := h
    cases he : s.err with
    | true => exact hsame (hset he)
    | false =>
      obtain ⟨herr, hcode, -⟩ := hclear he
      exact ⟨iff_of_false (hcode ▸ hne) (by simp [herr]), by simp [herr]⟩

/-- R106: seeding records OVERFLOW or nothing. -/
theorem seedBody_errorKept (w : Word) (s : State) : ErrorKept s (seedBody w s) := by
  rcases seedBody_cases w s with ⟨-, e⟩ | ⟨-, e⟩ <;> rw [e]
  · exact .recorded .overflow w (by decide) (raiseError_recorded .overflow w (seedClear s))
  · exact .same ⟨rfl, rfl, rfl⟩

/-- R165: each command records an error or leaves the record alone. -/
theorem exec_errorKept {i : Instr} {s t : State} (h : exec i s = .next t) : ErrorKept s t := by
  cases i with
  | nop => cases h; exact .same ⟨rfl, rfl, rfl⟩
  | clearFreq => cases h; exact .same ⟨rfl, rfl, rfl⟩
  | seed => cases h; exact seedBody_errorKept _ s
  | merge =>
    rcases execMerge_cases h with ⟨-, rfl⟩ | ⟨-, hm⟩ | ⟨-, rfl⟩
    · exact errorKept_raise (by decide) _ s
    · rw [mergeOnce_frame hm]; exact .same ⟨rfl, rfl, rfl⟩
    · exact .same ⟨rfl, rfl, rfl⟩
  | build =>
    rw [mergeLoop_frame (execBuild_cases h)]
    exact (seedBody_errorKept (encode .build) s).trans_same ⟨rfl, rfl, rfl⟩
  | extStart =>
    rcases execExtStart_cases h with ⟨-, rfl⟩ | ⟨-, rfl⟩
    · exact errorKept_raise (by decide) _ s
    · exact .same ⟨rfl, rfl, rfl⟩
  | extNext =>
    rcases execExtNext_cases h with ⟨-, rfl⟩ | ⟨-, q, -, ⟨tr, -, rfl⟩ | ⟨-, rfl⟩⟩
    · exact errorKept_raise (by decide) _ s
    · exact .same ⟨rfl, rfl, rfl⟩
    · exact .same ⟨rfl, rfl, rfl⟩

/-- R84, R85: out of reset the engine's turn records an error or leaves the record alone. -/
theorem engineTurn_errorKept {s t : State} (hr : s.rst = false) (h : engineTurn s = .next t) : ErrorKept s t := by
  rcases engineTurn_cases h with ⟨hr', -⟩ | ⟨-, -, hc⟩ | ⟨-, -, rfl⟩
  · simp [hr] at hr'
  · obtain ⟨u, rfl, ⟨i, -, hu⟩ | ⟨r, -, rfl⟩⟩ := engineComplete_cases hc
    · exact (exec_errorKept hu).trans_same ⟨rfl, rfl, rfl⟩
    · exact (errorKept_raise (by decide) s.pending s).trans_same ⟨rfl, rfl, rfl⟩
  · exact .same ⟨rfl, rfl, rfl⟩

/-- R64: a write to one of the registers a pending command protects records BUSY while busy, and nothing while idle. -/
theorem writeReg_protected_errorKept {a : Addr}
    (hr : regAt a = .cmd ∨ regAt a = .nodeSel ∨ regAt a = .actSel ∨ ∃ sym, regAt a = .freq sym) (w : Word) (s : State) :
    ErrorKept s (writeReg a w s) := by
  cases hb : s.busy with
  | true => rw [writeReg_busy hr hb]; exact errorKept_raise (by decide) _ s
  | false =>
    rcases hr with hr | hr | hr | ⟨sym, hr⟩
    · rw [writeReg_cmd_idle hr hb]; exact .same ⟨rfl, rfl, rfl⟩
    · rw [writeReg_nodeSel_idle hr hb]; exact .same ⟨rfl, rfl, rfl⟩
    · rw [writeReg_actSel_idle hr hb]; exact .same ⟨rfl, rfl, rfl⟩
    · rw [writeReg_freq_idle hr hb]; exact .same ⟨rfl, rfl, rfl⟩

/-- R64: a write dispatch is that of STATUS, or records BUSY or nothing. -/
theorem writeReg_error (a : Addr) (w : Word) (s : State) :
    (regAt a = .status ∧ writeReg a w s = writeStatus w s) ∨ ErrorKept s (writeReg a w s) := by
  by_cases hstatus : regAt a = .status
  · exact .inl ⟨hstatus, writeReg_status hstatus w s⟩
  right
  by_cases hctrl : regAt a = .ctrl
  · rw [writeReg_ctrl hctrl]
    exact .same ⟨rfl, rfl, rfl⟩
  by_cases hprot : regAt a = .cmd ∨ regAt a = .nodeSel ∨ regAt a = .actSel ∨ ∃ sym, regAt a = .freq sym
  · exact writeReg_protected_errorKept hprot w s
  · rw [writeReg_ignored hctrl hstatus (fun h => hprot (.inl h)) (fun h => hprot (.inr (.inl h)))
      (fun h => hprot (.inr (.inr (.inl h)))) (fun sym h => hprot (.inr (.inr (.inr ⟨sym, h⟩))))]
    exact .same ⟨rfl, rfl, rfl⟩

/-- R61, R64: a transaction is a full STATUS write, or records BUSY or nothing. -/
theorem busStep_error (op : BusOp) (s : State) :
    (∃ w, op = .write 0x008 0xF w ∧ busStep op s = { writeStatus w s with answer := some (.write .ok) }) ∨
    ErrorKept s (busStep op s) := by
  rcases busStep_cases op s with ⟨ans, d, e⟩ | ⟨a, w, rfl, ha, e⟩
  · rw [e]; exact .inr (.same ⟨rfl, rfl, rfl⟩)
  · rw [e]
    rcases writeReg_error a w s with ⟨hr, hw⟩ | hkept
    · obtain rfl := eq_of_regAt ha (r := .status) rfl hr
      exact .inl ⟨w, rfl, by rw [hw]⟩
    · exact .inr (hkept.trans_same ⟨rfl, rfl, rfl⟩)

/-- R23: a STATUS write keeps the error record in order. -/
theorem writeStatus_errorInv (w : Word) {s : State} (h : errorInv s) : errorInv (writeStatus w s) := by
  rw [errorInv, writeStatus_err, writeStatus_errcode, writeStatus_errinfo]
  cases w.getLsbD 2 with
  | false => simpa [errorInv] using h
  | true => simp

/-- R23: a STATUS write with bit 2 clear leaves the error record alone. -/
theorem writeStatus_sameError {w : Word} (h : w.getLsbD 2 = false) (s : State) : sameError s (writeStatus w s) := by
  simp only [sameError, writeStatus_err, writeStatus_errcode, writeStatus_errinfo, h]
  simp

/-- R61, R165: a transaction keeps the error record in order. -/
theorem busStep_errorInv (op : BusOp) {s : State} (h : errorInv s) : errorInv (busStep op s) := by
  rcases busStep_error op s with ⟨w, -, e⟩ | hkept
  · rw [e]; exact writeStatus_errorInv w h
  · exact hkept.errorInv h

/-! ### The reset line (R191) -/

/-- No transaction reaches the reset line. -/
theorem busStep_rst (op : BusOp) (s : State) : (busStep op s).rst = s.rst := by
  rcases busStep_cases op s with ⟨ans, d, e⟩ | ⟨a, w, -, -, e⟩
  · rw [e]
  · rw [e]
    rcases writeReg_cases a w s with e | e | e | ⟨-, e⟩ | ⟨-, e | e | e | ⟨sym, e⟩⟩ <;> rw [e] <;> simp

/-- R191: a state out of reset meets the reset line's invariant. -/
theorem resetInv_of_deasserted {s : State} (h : s.rst = false) : resetInv s := by
  intro hr
  simp [h] at hr

/-! ### Every step keeps the invariant -/

/-- R160, R190: the reset values meet what the invariant says of the error record and the reset line. -/
theorem holdReset_error_reset (s : State) : errorInv (holdReset s) ∧ resetInv (holdReset s) :=
  ⟨⟨iff_of_true rfl rfl, fun _ => rfl⟩, fun _ => rfl⟩

/-- R84, R191: the engine's turn keeps the error record in order and meets the reset line's invariant. -/
theorem engineTurn_keeps_error_reset {s t : State} (h : errorInv s) (he : engineTurn s = .next t) :
    errorInv t ∧ resetInv t := by
  cases hr : s.rst with
  | true =>
    cases (engineTurn_held hr).symm.trans he
    exact holdReset_error_reset s
  | false =>
    refine ⟨(engineTurn_errorKept hr he).errorInv h, resetInv_of_deasserted ?_⟩
    cases hb : s.busy with
    | false =>
      cases (engineTurn_idle hr hb).symm.trans he
      exact hr
    | true =>
      obtain ⟨u, rfl, -, -, -, -, -, -, -, hrst, -⟩ := engineTurn_busy_cases hr hb he
      exact hrst.trans hr

/-- R165, R191: every step keeps the error record in order and meets the reset line's invariant. -/
theorem step_keeps_error_reset {s t : State} (h : errorInv s) (hs : step s = .next t) : errorInv t ∧ resetInv t := by
  obtain ⟨s0, hs0, hturn⟩ := step_cases hs
  have h0 : errorInv s0 ∧ s0.rst = s.rst := by
    rcases hs0 with ⟨-, rfl⟩ | ⟨i, rest, -, rfl⟩ <;> exact ⟨h, rfl⟩
  obtain ⟨herr, hrst⟩ := h0
  rcases hturn with ⟨-, he⟩ | ⟨op, rest, -, hr, rfl⟩ | ⟨rest, -, rfl⟩ | ⟨rest, -, rfl⟩
  · exact engineTurn_keeps_error_reset herr he
  · exact ⟨busStep_errorInv op herr, resetInv_of_deasserted ((busStep_rst op s0).trans (hrst.trans hr))⟩
  · exact holdReset_error_reset s0
  · exact ⟨herr, resetInv_of_deasserted rfl⟩

/-- The invariant is kept by every step: by each of its four parts. -/
theorem step_keeps_inv {s t : State} (h : Inv s) (hs : step s = .next t) : Inv t := by
  obtain ⟨herror, hreset⟩ := step_keeps_error_reset h.error hs
  obtain ⟨hextractor, -⟩ := step_keeps_extractor h.builder h.extractor hs
  exact ⟨step_keeps_builder h.builder hs, hextractor, herror, hreset⟩

/-! ### A pending command among the turns to come (R84) -/

/-- A run of any machine goes on from the state after its first step. -/
theorem coreRun_succ {M : Host.Core} {s t : M.State} (h : M.step s = .next t) (k : Nat) : M.run (k + 1) s = M.run k t := by
  rw [Host.Core.run, h]

/-- A run of the block goes on from the state after its first step. -/
theorem run_succ {s t : State} (h : step s = .next t) (k : Nat) :
    Host.Core.run core (k + 1) s = Host.Core.run core k t :=
  coreRun_succ (M := core) h k

/-- R84: a step that is the engine's turn completes the pending command. -/
theorem run_one_completes {s u : State} (h : BuilderInv u) (hr : u.rst = false) (hb : u.busy = true)
    (hs : step s = engineTurn u) : ∃ t, Host.Core.run core 1 s = .next t ∧ t.busy = false ∧ t.done = true := by
  obtain ⟨t, ht⟩ := engineTurn_completes h
  obtain ⟨v, rfl, -⟩ := engineTurn_busy_cases hr hb ht
  exact ⟨_, run_succ (hs.trans ht) 0, rfl, rfl⟩

/-- R84: a pending command completes within one step more than there are listed turns, by induction on them: each either is
the engine's, or keeps the command pending. -/
theorem run_completes {s : State} (hinv : Inv s) (hr : s.rst = false) (hb : s.busy = true)
    (hno : noReset s.inputs = true) :
    ∃ k t, k ≤ s.inputs.length + 1 ∧ Host.Core.run core k s = .next t ∧ t.busy = false ∧ t.done = true := by
  induction hin : s.inputs generalizing s with
  | nil =>
    obtain ⟨t, ht⟩ := run_one_completes hinv.builder hr hb (step_unlisted hin)
    exact ⟨1, t, Nat.le_refl 1, ht⟩
  | cons i rest ih =>
    have hstep := step_listed hin
    have hrest : i ≠ .rst true ∧ noReset rest = true := by simpa [hin, noReset] using hno
    obtain ⟨hi, hrest⟩ := hrest
    have later : ∀ u, step s = .next u → u.rst = false → u.busy = true → u.inputs = rest →
        ∃ k t, k ≤ (i :: rest).length + 1 ∧ Host.Core.run core k s = .next t ∧ t.busy = false ∧ t.done = true := by
      intro u hu hur hub hui
      obtain ⟨k, t, hk, ht⟩ := ih (step_keeps_inv hinv hu) hur hub (hui ▸ hrest) hui
      exact ⟨k + 1, t, Nat.succ_le_succ hk, (run_succ hu k).symm ▸ ht⟩
    cases i with
    | engine =>
      obtain ⟨t, ht⟩ := run_one_completes (u := { s with inputs := rest })
        (builder_of_sameTree (s := s) ⟨rfl, rfl, rfl, rfl, rfl, rfl⟩ hinv.builder) hr hb hstep
      exact ⟨1, t, by simp, ht⟩
    | bus op =>
      have hbusy := busStep_busy op (s := { s with inputs := rest }) hb
      refine later _ (hstep.trans (hostTurn_performed (s := { s with inputs := rest }) hr op)) ?_ ?_ ?_ <;> rw [hbusy]
      · exact hr
      · exact hb
    | rst a =>
      cases a with
      | true => exact absurd rfl hi
      | false => exact later _ hstep rfl hb rfl

/-! ### The claims -/

/-- Settles O9: by the four parts of the invariant. -/
theorem stepKeepsTheInvariant : Obligations.StepKeepsTheInvariant :=
  fun _ _ => step_keeps_inv

/-- Settles O10: under the invariant a step completes, but for a transaction during reset. -/
theorem stepNeverFaults : Obligations.StepNeverFaults := by
  intro s hinv
  rcases step_outcome hinv.builder with ⟨t, ht⟩ | ⟨href, hr, hbus⟩
  · rw [ht]
    exact ⟨nofun, nofun⟩
  · rw [href]
    refine ⟨nofun, fun r h => ?_⟩
    cases h
    exact ⟨rfl, hr, hbus⟩

/-- Settles O6: every command completes under the invariant, none writes the control state, and an illegal word completes
too. -/
theorem everyPendingWordCompletes : Obligations.EveryPendingWordCompletes := by
  intro s hinv hr hb
  obtain ⟨t, ht⟩ := engineTurn_completes hinv.builder
  obtain ⟨u, rfl, -, hpending, -, hieDone, hieErr, hnode, hact, hrst, hinputs, hanswer, hdraws⟩ :=
    engineTurn_busy_cases hr hb ht
  exact ⟨_, ht, rfl, rfl, hpending, hieDone, hieErr, hnode, hact, hrst.trans hr, hinputs, hanswer, hdraws⟩

/-- Settles O7, by induction on the listed turns. -/
theorem pendingCommandEventuallyCompletes : Obligations.PendingCommandEventuallyCompletes :=
  fun _ hinv hr hb hno => run_completes hinv hr hb hno

/-- Settles O43: every other turn records an error, which the one on record keeps out, or leaves the record alone. -/
theorem recordedErrorStaysUntilCleared : Obligations.RecordedErrorStaysUntilCleared := by
  intro s t herr hr hs hreset hstatus
  obtain ⟨s0, hs0, hturn⟩ := step_cases hs
  obtain ⟨ins, rfl⟩ : ∃ ins, s0 = { s with inputs := ins } := by
    rcases hs0 with ⟨-, rfl⟩ | ⟨i, rest, -, rfl⟩
    · exact ⟨s0.inputs, rfl⟩
    · exact ⟨rest, rfl⟩
  rcases hturn with ⟨-, he⟩ | ⟨op, rest, hin, -, rfl⟩ | ⟨rest, hin, -⟩ | ⟨rest, -, rfl⟩
  · exact (engineTurn_errorKept (s := { s with inputs := ins }) hr he).sameError_of_err herr
  · rcases busStep_error op { s with inputs := ins } with ⟨w, rfl, e⟩ | hkept
    · rw [e]
      exact writeStatus_sameError (hstatus w rest hin) { s with inputs := ins }
    · exact hkept.sameError_of_err herr
  · exact absurd hin (hreset rest)
  · exact ⟨rfl, rfl, rfl⟩

/-- Settles O4: the engine's turn, listed or not, is `exec` of the decoded word and the completion. -/
theorem stepRunsThePendingCommand : Obligations.StepRunsThePendingCommand := by
  intro s i rest hr hb hd hin
  have hturn : step s = engineTurn { s with inputs := rest } := by
    rcases hin with hin | ⟨hin, rfl⟩
    · exact step_listed hin
    · rw [step_unlisted hin, ← hin]
  rw [hturn]
  delta engineTurn engineComplete execute
  dsimp only
  rw [hr, hb, hd]
  dsimp only
  rcases exec i { s with inputs := rest } with t | f | r <;> rfl

/-- Settles O5: one clause for each kind of turn that is not the engine's of a busy block. -/
theorem stepTakesTheNextTurn : Obligations.StepTakesTheNextTurn := by
  refine fun s rest => ⟨fun op hin hr => ?bus, fun op hin hr => ?refused, fun a hin => ?line, fun hin hr hb => ?listed,
    fun hin hr hb => ?unlisted⟩
  case bus => exact (step_listed hin).trans (hostTurn_performed (s := { s with inputs := rest }) hr op)
  case refused => exact (step_listed hin).trans (hostTurn_refused (s := { s with inputs := rest }) hr op)
  case line => exact step_listed hin
  case listed => exact (step_listed hin).trans (engineTurn_idle (s := { s with inputs := rest }) hr hb)
  case unlisted => exact (step_unlisted hin).trans (engineTurn_idle hr hb)

/-- Settles O8: the reset state has no tree, a clear extractor, no error, and `rst` deasserted. -/
theorem resetMeetsTheInvariant : Obligations.ResetMeetsTheInvariant where
  builder := builder_of_sameTree (s := holdReset State.reset) ⟨rfl, rfl, rfl, rfl, rfl, rfl⟩ (holdReset_builder _)
  extractor := extractorInv_of_clear ⟨rfl, rfl, rfl, rfl, rfl, rfl, rfl, rfl⟩
  error := ⟨iff_of_true rfl rfl, fun _ => rfl⟩
  reset := resetInv_of_deasserted rfl

/-- Settles O42: the two branches of recording an error. -/
theorem firstErrorWins : Obligations.FirstErrorWins :=
  fun _ _ _ => ⟨fun he => if_neg (by simp [he]), fun he => if_pos he⟩

end Sys2Proof.Machine
end

section
/-! PROOF. Determinism of the results (40_tree_builder.md rule R114, 20_memory.md rule R71): a command's results depend on the
results before it, those of SEED and BUILD on the table alone, a transaction during a command writes none of either, and the two
claims on top of them. -/

namespace Sys2Proof.Machine

open Sys2Proof

/-! ### States of equal results -/

/-- The results of `s` with everything else of `o`: the engine, the error record, CTRL, the selections, the reset line and the
host's side. -/
def State.withOther (s o : State) : State :=
  { s with
    busy := o.busy, pending := o.pending, done := o.done, err := o.err, errcode := o.errcode, errinfo := o.errinfo
    ieDone := o.ieDone, ieErr := o.ieErr, nodeSel := o.nodeSel, actSel := o.actSel, rst := o.rst
    inputs := o.inputs, answer := o.answer, draws := o.draws }

/-- Two states of equal results differ in the rest only. -/
theorem eq_withOther {s u : State} (h : u.results = s.results) : u = s.withOther u := by
  cases s
  cases u
  cases h
  rfl

/-! ### The commands' results -/

/-- R103, R114: the seeding's results depend on the table alone, whichever command seeds. -/
theorem seedBody_results_congr {s u : State} (h : s.freq = u.freq) (w : Word) :
    (seedBody w s).results = (seedBody w u).results := by
  by_cases hf : fits s
  · have hfu : fits u := by rwa [fits, ← h]
    rw [seedBody_of_fits hf, seedBody_of_fits hfu]
    simp [State.results, h]
  · have hfu : ¬ fits u := by rwa [fits, ← h]
    rw [seedBody_of_overflow hf, seedBody_of_overflow hfu, raiseError_results, raiseError_results]
    simp [State.results, h]

/-- R109: a merge reads and writes results only. -/
theorem mergeOnce_withOther (o : State) {s t : State} (h : mergeOnce s = some t) :
    mergeOnce (s.withOther o) = some (t.withOther o) := by
  obtain ⟨hroom, a, act1, b, act2, na, nb, h1, h2, ha, hb, rfl⟩ := mergeOnce_cases h
  exact mergeOnce_of_selections (s := s.withOther o) hroom h1 h2 ha hb

/-- R112: the loop reads and writes results only. -/
theorem mergeLoop_withOther (o : State) {fuel : Nat} {s t : State} (h : mergeLoop fuel s = some t) :
    mergeLoop fuel (s.withOther o) = some (t.withOther o) := by
  induction fuel generalizing s with
  | zero =>
    obtain ⟨hp, rfl⟩ | ⟨-, k, u, hk, -⟩ := mergeLoop_cases h
    · exact mergeLoop_done (s := t.withOther o) hp 0
    · cases hk
  | succ fuel ih =>
    obtain ⟨hp, rfl⟩ | ⟨hp, k, u, hk, hu, hrest⟩ := mergeLoop_cases h
    · exact mergeLoop_done (s := t.withOther o) hp _
    · cases hk
      rw [mergeLoop_succ (s := s.withOther o) hp (mergeOnce_withOther o hu)]
      exact ih hrest

/-- R112: from equal results the loop leaves equal results. -/
theorem mergeLoop_results_congr {fuel : Nat} {s t u : State} (h : u.results = s.results)
    (hl : mergeLoop fuel s = some t) : ∃ v, mergeLoop fuel u = some v ∧ v.results = t.results := by
  rw [eq_withOther h]
  exact ⟨_, mergeLoop_withOther u hl, rfl⟩

/-- R114: from equal tables SEED and BUILD leave equal results. -/
theorem exec_rebuild_results_congr {s t u : State} (h : u.freq = s.freq) {i : Instr} (hi : i = .seed ∨ i = .build)
    (he : exec i s = .next t) : ∃ v, exec i u = .next v ∧ v.results = t.results := by
  rcases hi with rfl | rfl
  · cases he
    exact ⟨_, rfl, seedBody_results_congr h (encode .seed)⟩
  · have hseed := seedBody_results_congr h (encode .build)
    have hact : (seedBody (encode .build) u).act = (seedBody (encode .build) s).act := congrArg Results.act hseed
    obtain ⟨v, hv, hres⟩ := mergeLoop_results_congr hseed (execBuild_cases he)
    exact ⟨v, exec_build_of_loop (hact.symm ▸ hv), hres⟩

/-- R114, R71: from equal results a command leaves equal results. -/
theorem exec_results_congr {i : Instr} {s t u : State} (h : u.results = s.results) (he : exec i s = .next t) :
    ∃ v, exec i u = .next v ∧ v.results = t.results := by
  rw [eq_withOther h]
  cases i with
  | nop => cases he; exact ⟨_, rfl, rfl⟩
  | clearFreq => cases he; exact ⟨_, rfl, rfl⟩
  | seed => exact exec_rebuild_results_congr (s := s) (u := s.withOther u) rfl (.inl rfl) he
  | merge =>
    rcases execMerge_cases he with ⟨hp, rfl⟩ | ⟨hp, hm⟩ | ⟨hp, rfl⟩
    · exact ⟨_, exec_merge_none (s := s.withOther u) hp, by rw [raiseError_results, raiseError_results]; rfl⟩
    · exact ⟨_, exec_merge_seeded (s := s.withOther u) hp (mergeOnce_withOther u hm), rfl⟩
    · exact ⟨_, exec_merge_done (s := t.withOther u) hp, rfl⟩
  | build => exact exec_rebuild_results_congr (s := s) (u := s.withOther u) rfl (.inr rfl) he
  | extStart =>
    rcases execExtStart_cases he with ⟨hp, rfl⟩ | ⟨hp, rfl⟩
    · exact ⟨_, exec_extStart_refused (s := s.withOther u) hp, by rw [raiseError_results, raiseError_results]; rfl⟩
    · exact ⟨_, exec_extStart_begin (s := s.withOther u) hp, rfl⟩
  | extNext =>
    rcases execExtNext_cases he with ⟨ha, rfl⟩ | ⟨ha, q, hq, ⟨tr, htr, rfl⟩ | ⟨hend, rfl⟩⟩
    · exact ⟨_, exec_extNext_inactive (s := s.withOther u) ha, by rw [raiseError_results, raiseError_results]; rfl⟩
    · exact ⟨_, exec_extNext_triple (s := s.withOther u) ha hq htr, rfl⟩
    · exact ⟨_, exec_extNext_end (s := s.withOther u) ha hq hend, rfl⟩

/-! ### A command pending over the same results -/

/-- R71: two blocks out of reset with the same command pending over the same results. -/
structure SamePending (s u : State) : Prop where
  rst : s.rst = false ∧ u.rst = false
  busy : s.busy = true ∧ u.busy = true
  pending : u.pending = s.pending
  results : u.results = s.results

/-- What two stretches of traffic leave alone, both together do. -/
theorem SamePending.trans {s u v : State} (h : SamePending s u) (h' : SamePending u v) : SamePending s v :=
  ⟨⟨h.rst.1, h'.rst.2⟩, ⟨h.busy.1, h'.busy.2⟩, h'.pending.trans h.pending, h'.results.trans h.results⟩

/-- R84, R114: with the same command pending over the same results the engine's turn leaves equal results. -/
theorem SamePending.engineTurn {s u t : State} (h : SamePending s u) (he : engineTurn s = .next t) :
    ∃ v, Machine.engineTurn u = .next v ∧ v.results = t.results ∧ v.busy = t.busy ∧ v.done = t.done := by
  obtain ⟨⟨hr, hur⟩, ⟨hb, hub⟩, hp, hres⟩ := h
  rcases engineTurn_cases he with ⟨hr', -⟩ | ⟨-, -, hc⟩ | ⟨-, hb', -⟩
  · simp [hr] at hr'
  · obtain ⟨x, rfl, ⟨i, hd, hx⟩ | ⟨r, hd, rfl⟩⟩ := engineComplete_cases hc
    · obtain ⟨y, hy, hres'⟩ := exec_results_congr hres hx
      exact ⟨_, engineTurn_command hur hub (hp ▸ hd) hy, hres', rfl, rfl⟩
    · refine ⟨_, engineTurn_illegal hur hub (hp ▸ hd), ?_, rfl, rfl⟩
      have hraise : ∀ (w : Word) (x : State), (complete (raiseError .illegalCmd w x)).results = x.results :=
        raiseError_results .illegalCmd
      rw [hraise, hraise, hres]
  · simp [hb] at hb'

/-- R71: a transaction during a command leaves it pending over the same results. -/
theorem busStep_samePending (op : BusOp) {s : State} (hr : s.rst = false) (hb : s.busy = true) :
    SamePending s (busStep op s) := by
  rw [busStep_busy op hb]
  exact ⟨⟨hr, hr⟩, ⟨hb, hb⟩, rfl, rfl⟩

/-- R71: so do any transactions, by induction on them. -/
theorem busSteps_samePending (ops : List BusOp) {s : State} (hr : s.rst = false) (hb : s.busy = true) :
    SamePending s (busSteps ops s) := by
  induction ops generalizing s with
  | nil => exact ⟨⟨hr, hr⟩, ⟨hb, hb⟩, rfl, rfl⟩
  | cons op ops ih =>
    have hone := busStep_samePending op hr hb
    exact hone.trans (ih hone.rst.2 hone.busy.2)

/-! ### The claims -/

/-- Settles O29: SEED and BUILD complete in every state, and from equal tables leave equal results. -/
theorem sameTableSameTree : Obligations.SameTableSameTree := by
  intro s u i hi h
  obtain ⟨t, ht⟩ := exec_rebuild_completes s hi
  obtain ⟨v, hv, hres⟩ := exec_rebuild_results_congr h.symm hi ht
  exact ⟨t, v, ht, hv, hres.symm⟩

/-- Settles O30: the transactions leave the command pending over the same results, and the completion's results depend on these
alone. -/
theorem busyTrafficNeverReachesTheResult : Obligations.BusyTrafficNeverReachesTheResult := by
  intro s ops hr hb
  have h := busSteps_samePending ops hr hb
  exact ⟨h.busy.2, h.pending, fun _ => h.engineTurn⟩

end Sys2Proof.Machine
end

section
/-! PROOF. The reference scan and BUILD as a whole (41_priority_node_selector.md rule R132, 40_tree_builder.md rule R112): the
scan against the least count and its first position, what the merge loop leaves of a seeded table, and the two claims on top of
them. -/

namespace Sys2Proof.Machine

open Sys2Proof

/-! ### The reference scan (R132) -/

/-- R131: a count that is no greater than any is the least. -/
theorem minCount_eq_of_le {c m : Word} {cs : List Word} (hmem : m ∈ c :: cs) (hle : ∀ d ∈ c :: cs, m.toNat ≤ d.toNat) :
    minCount c cs = m :=
  BitVec.eq_of_toNat_eq (Nat.le_antisymm (minCount_le c cs m hmem) (hle _ (minCount_mem c cs)))

/-- R131: the least of two counts and more is the least without the second, where the first is no greater. -/
theorem minCount_cons_of_le {c d : Word} (h : c.toNat ≤ d.toNat) (ds : List Word) :
    minCount c (d :: ds) = minCount c ds := by
  have hsub : c :: ds ⊆ c :: d :: ds := List.cons_subset_cons c (List.subset_cons_self d ds)
  refine minCount_eq_of_le (hsub (minCount_mem c ds)) fun e he => ?_
  rcases List.mem_cons.mp he with rfl | he
  · exact minCount_le e ds e List.mem_cons_self
  rcases List.mem_cons.mp he with rfl | he
  · exact (minCount_le c ds c List.mem_cons_self).trans h
  · exact minCount_le c ds e (List.mem_cons_of_mem c he)

/-- R131: the least of two counts and more is the least without the first, where the second is less. -/
theorem minCount_cons_of_gt {c d : Word} (h : d.toNat < c.toNat) (ds : List Word) :
    minCount c (d :: ds) = minCount d ds :=
  if_pos ((minCount_le d ds d List.mem_cons_self).trans_lt h)

/-- R132: the scan stays at the best position where its count is the least, and else finds the first position of the least. -/
theorem scanFrom_eq (best : Nat) (c : Word) (i : Nat) (cs : List Word) :
    scanFrom best c i cs = if minCount c cs = c then best else i + firstPos (minCount c cs) cs := by
  induction cs generalizing best c i with
  | nil => exact (if_pos rfl).symm
  | cons d ds ih =>
    rw [scanFrom]
    split
    · next hlt =>
      have hle := minCount_le d ds d List.mem_cons_self
      have hne : minCount d ds ≠ c := fun he => by rw [he] at hle; omega
      rw [ih, minCount_cons_of_gt hlt, if_neg hne, firstPos]
      by_cases hd : minCount d ds = d
      · rw [if_pos hd, if_pos hd.symm, Nat.add_zero]
      · rw [if_neg hd, if_neg (Ne.symm hd)]
        omega
    · next hge =>
      rw [ih, minCount_cons_of_le (Nat.le_of_not_lt hge)]
      by_cases hc : minCount c ds = c
      · rw [if_pos hc, if_pos hc]
      · have hmem : minCount c ds ∈ ds := (List.mem_cons.mp (minCount_mem c ds)).resolve_left hc
        have hle := minCount_le c ds c List.mem_cons_self
        have hd : d ≠ minCount c ds := fun he => hc (BitVec.eq_of_toNat_eq (by rw [← he] at hle ⊢; omega))
        rw [if_neg hc, if_neg hc, firstPos, if_neg hd]
        omega

/-! ### BUILD of a table that fits (R112) -/

/-- R107, R112: BUILD of a table without a present symbol is EMPTY: nothing is seeded, and the loop does not run. -/
theorem exec_build_of_no_symbol {s : State} (h : fits s) (h0 : (presentSyms s).length = 0) :
    exec .build s = .next (seedTable (seedClear s)) ∧ (seedTable (seedClear s)).phase = .empty := by
  have hphase : (seedTable (seedClear s)).phase = .empty := by
    rw [seedTable_phase, seedClear_freq, seedLeaves_length, h0]
    rfl
  refine ⟨exec_build_of_loop ?_, hphase⟩
  rw [seedBody_of_fits h]
  exact mergeLoop_done (by rw [hphase]; decide) _

/-- R112: what BUILD leaves of a table that fits meets the builder's invariant with at most one member left, and is the seeded
state but for the tree. -/
theorem exec_build_of_fits {s : State} (h : fits s) :
    ∃ t, exec .build s = .next t ∧ BuilderInv t ∧ t.act.length = (presentSyms s).length - ((presentSyms s).length - 1) ∧
      t = { seedTable (seedClear s) with nodes := t.nodes, act := t.act, phase := t.phase, root := t.root } := by
  obtain ⟨t, hall, hinv, hlen⟩ := execAll_seed_merges h le_rfl
  have hbuild := exec_build_of_merges h hall
  have hframe := mergeLoop_frame (execBuild_cases hbuild)
  rw [seedBody_of_fits h] at hframe
  exact ⟨t, hbuild, hinv, hlen, hframe⟩

/-! ### The claims -/

/-- Settles O17: both select the first position of the least count. -/
theorem referenceScanAgrees : Obligations.ReferenceScanAgrees := by
  intro counts
  cases counts with
  | nil => rfl
  | cons c cs =>
    rw [scanPos, selectPos, scanFrom_eq, firstPos]
    by_cases hc : minCount c cs = c
    · rw [if_pos hc, if_pos hc.symm]
    · rw [if_neg hc, if_neg (Ne.symm hc), Nat.add_comm]

/-- Settles O27: with no present symbol the loop does not run; with one or more it leaves one member, the phase is TREE, and the
numbers are those of R118. -/
theorem buildMakesTheWholeTree : Obligations.BuildMakesTheWholeTree := by
  intro s h
  obtain ⟨t, hbuild, hinv, hlen, hframe⟩ := exec_build_of_fits h
  have hnleaf : t.nleaf.toNat = (presentSyms s).length := by
    rw [hframe, ← seedLeaves_length]
    exact seedTable_nleaf_toNat s
  refine ⟨t, hbuild, hnleaf, ?total, fun h0 => ?empty, fun h1 => ?tree, exec_rebuild_extractorClear (.inr rfl) hbuild, ?freq,
    ?error, exec_control hbuild⟩
  case total => rw [hframe]; exact seedTable_total_toNat h
  case empty =>
    obtain ⟨hbuild', hphase⟩ := exec_build_of_no_symbol h h0
    cases hbuild.symm.trans hbuild'
    have hact := List.length_eq_zero_iff.mp ((seedTable_act_length s).trans h0)
    exact ⟨hphase, nodes_of_act_nil hinv hact, hact, rfl⟩
  case tree =>
    have hone : t.act.length = 1 := by omega
    have hphase := (phase_tree_iff hinv).mpr hone
    obtain ⟨hact, hroot⟩ := phaseOk_tree hinv.phase hphase
    have hsize := hinv.size
    exact ⟨hphase, by omega, hact, hroot⟩
  case freq => rw [hframe]; rfl
  case error => rw [hframe]; exact ⟨rfl, rfl, rfl⟩

end Sys2Proof.Machine
end

section
/-! PROOF. The registers as a host reads and writes them (10_state.md rules R20, R23, R26 to R36, R40, R47 and R48, 20_memory.md
rule R65): the fields of STATUS, what a read returns of a busy block, which writes are ignored, the FREQ table and the result
registers, and the claims on top of them. -/

namespace Sys2Proof.Machine

open Sys2Proof

/-! ### STATUS (R23) -/

/-- R23: the single bits BUSY, DONE and ERR of a word in STATUS's layout. -/
theorem statusWith_bits (s : State) (mid : BitVec 7) :
    (s.statusWith mid).getLsbD 0 = s.busy ∧ (s.statusWith mid).getLsbD 1 = s.done ∧
      (s.statusWith mid).getLsbD 2 = s.err := by
  delta State.statusWith
  refine ⟨?_, ?_, ?_⟩
  · rw [BitVec.getLsbD_append, if_pos (by decide)]
    exact BitVec.getLsbD_ofBool ..
  · rw [getLsbD_append_high _ _ (by decide), BitVec.getLsbD_append, if_pos (by decide)]
    simp
  · iterate 2 rw [getLsbD_append_high _ _ (by decide)]
    rw [BitVec.getLsbD_append, if_pos (by decide)]
    simp

/-- R23: the fields above them: the seven bits [9:3], ERRCODE, and the reserved ones around it. -/
theorem statusWith_fields (s : State) (mid : BitVec 7) :
    (s.statusWith mid).extractLsb' 3 7 = mid ∧ (s.statusWith mid).extractLsb' 10 2 = 0 ∧
      (s.statusWith mid).extractLsb' 12 4 = s.errcode.bits ∧ (s.statusWith mid).extractLsb' 16 16 = 0 := by
  delta State.statusWith
  refine ⟨?_, ?_, ?_, ?_⟩
  · iterate 3 rw [BitVec.extractLsb'_append_eq_of_le (by decide)]
    exact BitVec.extractLsb'_append_eq_right
  · iterate 4 rw [BitVec.extractLsb'_append_eq_of_le (by decide)]
    exact BitVec.extractLsb'_append_eq_right
  · iterate 5 rw [BitVec.extractLsb'_append_eq_of_le (by decide)]
    exact BitVec.extractLsb'_append_eq_right
  · iterate 6 rw [BitVec.extractLsb'_append_eq_of_le (by decide)]
    exact BitVec.extractLsb'_eq_self

/-- R23: the fields of the seven bits [9:3] as stored, for each value of the flags. -/
theorem midWord_fields (phase : BitVec 2) (ended valid active : Bool) :
    let mid := phase ++ (0 : BitVec 2) ++ BitVec.ofBool ended ++ BitVec.ofBool valid ++ BitVec.ofBool active
    mid.getLsbD 0 = active ∧ mid.getLsbD 1 = valid ∧ mid.getLsbD 2 = ended ∧ mid.extractLsb' 3 2 = 0 ∧
      mid.extractLsb' 5 2 = phase := by
  revert phase ended valid active
  decide

/-- A field within a field of a word is a field of the word. -/
theorem extractLsb'_of_field {w : Word} {start n : Nat} {field : BitVec n} (h : w.extractLsb' start n = field)
    {i len : Nat} (hi : i + len ≤ n) : w.extractLsb' (start + i) len = field.extractLsb' i len := by
  subst h
  ext k hk
  simp [Nat.add_assoc, show i + k < n by omega]

/-- A bit of a field of a word is a bit of the word. -/
theorem getLsbD_of_field {w : Word} {start n : Nat} {field : BitVec n} (h : w.extractLsb' start n = field) {i : Nat}
    (hi : i < n) : w.getLsbD (start + i) = field.getLsbD i := by
  rw [← h, BitVec.getLsbD_extractLsb', decide_eq_true hi, Bool.true_and]

/-- R23: the fields of STATUS [9:3] as stored. -/
theorem status_mid (s : State) :
    s.status.getLsbD 3 = s.extActive ∧ s.status.getLsbD 4 = s.extValid ∧ s.status.getLsbD 5 = s.extEnd ∧
      s.status.extractLsb' 6 2 = 0 ∧ s.status.extractLsb' 8 2 = s.phase.bits := by
  obtain ⟨hmid, -⟩ : s.status.extractLsb' 3 7 = s.statusMid ∧ _ := statusWith_fields s s.statusMid
  obtain ⟨hactive, hvalid, hended, hzero, hphase⟩ := midWord_fields s.phase.bits s.extEnd s.extValid s.extActive
  exact ⟨(getLsbD_of_field hmid (i := 0) (by decide)).trans hactive,
    (getLsbD_of_field hmid (i := 1) (by decide)).trans hvalid, (getLsbD_of_field hmid (i := 2) (by decide)).trans hended,
    (extractLsb'_of_field hmid (i := 3) (by decide)).trans hzero,
    (extractLsb'_of_field hmid (i := 5) (by decide)).trans hphase⟩

/-- R23: a STATUS write reaches no result. -/
theorem writeStatus_results (w : Word) (s : State) : (writeStatus w s).results = s.results := by
  delta State.results
  simp

/-! ### Reads (R47, R65) -/

/-- R23: STATUS of an idle block reads as stored. -/
theorem readAnswer_status_idle {s : State} (hb : s.busy = false) : readAnswer 0x008 s = some (.read s.status .ok) :=
  readAnswer_idle hb (r := .status) (by decide) (by decide)

/-- R47: STATUS of a busy block reads as stored but for [9:3], which are this read's draw. -/
theorem readAnswer_status_busy {s : State} (hb : s.busy = true) :
    readAnswer 0x008 s = some (.read (s.statusWith ((Config.freeRead s.draws).extractLsb' 3 7)) .ok) := by
  have hreg : regAt 0x008 = .status := by decide
  rw [readAnswer_aligned (by decide), readData, hreg]
  delta readReg
  rw [if_pos hb]
  rfl

/-- R47: a register that is on no list reads as this read's draw, and takes it. -/
theorem busRead_free {s : State} (hb : s.busy = true) {a : Addr} {r : Reg} (ha : aligned a = true) (hr : regAt a = r)
    (hany : r.busyRead = .any) :
    readAnswer a s = some (.read (Config.freeRead s.draws) .ok) ∧ (busRead a s).draws = s.draws + 1 := by
  have hdata : readReg s (Config.freeRead s.draws) r = Config.freeRead s.draws := by
    delta readReg
    rw [if_pos hb, hany]
  have hdraw : takesDraw s r = true := by simp [takesDraw, hb, hany]
  refine ⟨by rw [readAnswer_aligned ha, readData, hr, hdata], ?_⟩
  delta busRead
  rw [if_pos ha, hr, hdraw]
  rfl

/-- R65: no stored value reads the host's side. -/
theorem readStored_of_host (s : State) (ans : Option Answer) (d : Nat) (r : Reg) :
    readStored { s with answer := ans, draws := d } r = readStored s r := by
  cases r <;> rfl

/-! ### The register map and the writes it ignores (R20, R48) -/

/-- R20: where the listed registers stand: up to 0x070 with two gaps, and the FREQ table from 0x400 to 0x7FC. -/
theorem offset_range {r : Reg} {a : Addr} (h : r.offset = some a) :
    a.toNat ≤ 0x070 ∧ a.toNat ≠ 0x02C ∧ a.toNat ≠ 0x03C ∨ 0x400 ≤ a.toNat ∧ a.toNat < 0x800 := by
  cases r with
  | freq sym =>
    cases h
    have hsym := sym.isLt
    rw [freqOffset_toNat]
    omega
  | outCode k =>
    cases h
    have hk := k.isLt
    rw [outCodeOffset_toNat]
    omega
  | reserved => cases h
  | _ =>
    cases h
    decide

/-- R48: every other aligned offset is reserved. -/
theorem regAt_reserved {a : Addr} (ha : aligned a = true)
    (h : a.toNat = 0x02C ∨ a.toNat = 0x03C ∨ (0x074 ≤ a.toNat ∧ a.toNat ≤ 0x3FC) ∨ 0x800 ≤ a.toNat) :
    regAt a = .reserved := by
  by_contra hlisted
  have hrange := offset_range (offset_regAt ha hlisted)
  omega

/-- R48: a full write to an offset other than those of the six writable kinds of register is ignored, with OK. -/
theorem busWrite_ignored {a : Addr} (ha : aligned a = true)
    (hfew : a.toNat ≠ 0x004 ∧ a.toNat ≠ 0x008 ∧ a.toNat ≠ 0x00C ∧ a.toNat ≠ 0x060 ∧ a.toNat ≠ 0x06C)
    (htable : a.toNat < 0x400 ∨ 0x800 ≤ a.toNat) (w : Word) (s : State) :
    busWrite a 0xF w s = { s with answer := some (.write .ok) } := by
  obtain ⟨hctrl, hstatus, hcmd, hnode, hact⟩ := hfew
  have hne : ∀ (off : Addr) {r : Reg}, r.offset = some off → a.toNat ≠ off.toNat → regAt a ≠ r :=
    fun off r hoff hne hr => hne (congrArg BitVec.toNat (eq_of_regAt ha hoff hr))
  have hfreq : ∀ sym, regAt a ≠ .freq sym := fun sym => hne _ rfl (by
    have hsym := sym.isLt
    rw [freqOffset_toNat]
    omega)
  rw [busWrite_full ha, writeReg_ignored (hne 0x004 rfl hctrl) (hne 0x008 rfl hstatus) (hne 0x00C rfl hcmd)
    (hne 0x060 rfl hnode) (hne 0x06C rfl hact) hfreq]

/-- R22: CTRL reads only its two enables. -/
theorem ctrl_lt (s : State) : s.ctrl.toNat < 4 := by
  have hword : ∀ e d : Bool, ((0 : BitVec 30) ++ BitVec.ofBool e ++ BitVec.ofBool d).toNat < 4 := by decide
  exact hword s.ieErr s.ieDone

/-! ### The FREQ table (R40) -/

/-- R40: a full write to an entry of an idle block's table. -/
theorem busWrite_freq_idle {s : State} (hb : s.busy = false) {sym : Sym} {a : Addr}
    (ha : Reg.offset (.freq sym) = some a) (w : Word) :
    busWrite a 0xF w s = { writeFreq sym w s with answer := some (.write .ok) } := by
  obtain ⟨haligned, hreg⟩ := regAt_offset ha
  rw [busWrite_full haligned, writeReg_freq_idle hreg hb]

/-- R40: the entry written holds the word. -/
theorem readFreq_writeFreq_same (sym : Sym) (w : Word) (s : State) : readFreq (writeFreq sym w s) sym = w := by
  simp [readFreq]

/-- R40: the other entries hold what they did. -/
theorem readFreq_writeFreq_other {sym other : Sym} (h : other ≠ sym) (w : Word) (s : State) :
    readFreq (writeFreq sym w s) other = readFreq s other :=
  Vector.getElem_set_ne sym.isLt other.isLt fun he => h (BitVec.eq_of_toNat_eq he.symm)

/-- R40: no command but CLEAR_FREQ changes the table. -/
theorem exec_freq {i : Instr} {s t : State} (hi : i ≠ .clearFreq) (he : exec i s = .next t) : t.freq = s.freq := by
  cases i with
  | nop => cases he; rfl
  | clearFreq => exact absurd rfl hi
  | seed => cases he; exact seedBody_freq _ s
  | merge =>
    rcases execMerge_cases he with ⟨-, rfl⟩ | ⟨-, hm⟩ | ⟨-, rfl⟩
    · exact raiseError_freq ..
    · rw [mergeOnce_frame hm]
    · rfl
  | build =>
    rw [mergeLoop_frame (execBuild_cases he)]
    exact seedBody_freq (encode .build) s
  | extStart => exact (exec_extractor_readOnly (.inl rfl) he).2
  | extNext => exact (exec_extractor_readOnly (.inr rfl) he).2

/-! ### The result registers (R26 to R33) -/

/-- R28, R118: ACTLEN holds the number of members. -/
theorem actLength_toNat {s : State} (h : BuilderInv s) : (BitVec.ofNat 32 s.act.length).toNat = s.act.length := by
  obtain ⟨-, -, hact⟩ := leaves_internals h
  have hleaves : s.nleaf.toNat ≤ 256 := h.leaves
  exact Nat.mod_eq_of_lt (by omega)

/-- R30: outside TREE the root is 0. -/
theorem root_of_not_tree {s : State} (h : phaseOk s) (hp : s.phase ≠ .tree) : s.root = 0 := by
  delta phaseOk at h
  split at h
  · obtain ⟨-, -, -, hroot, -⟩ := h
    exact hroot
  · exact h.2
  · next htree => exact absurd htree hp
  · obtain ⟨-, -, -, hroot, -⟩ := h
    exact hroot

/-- R33: no more than 256 triples are produced. -/
theorem extIdx_le {s : State} (h : Inv s) : s.extIdx.toNat ≤ 256 := by
  cases ha : s.extActive with
  | true =>
    obtain ⟨-, ⟨q, hq, hle⟩, -⟩ := active_position h.extractor ha
    exact hle.trans (seq_length_le h.builder hq)
  | false =>
    obtain ⟨-, -, -, hidx, -⟩ := extractorClear_of_inactive h.extractor ha
    rw [hidx]
    exact Nat.zero_le _

/-! ### The claims -/

/-- Settles O47: a read of an idle block takes no draw, and no stored value reads what it writes. -/
theorem readsHaveNoSideEffect : Obligations.ReadsHaveNoSideEffect := by
  intro s a be
  by_cases ha : aligned a = true
  · have hread : busRead a s = { s with
        answer := some (.read (readData a s) .ok)
        draws := if takesDraw s (regAt a) then s.draws + 1 else s.draws } := if_pos ha
    refine ⟨_, _, hread, fun _ => ⟨_, rfl⟩, fun hb => ⟨by simp [takesDraw, hb], ?_⟩⟩
    change readAnswer a (busRead a s) = _
    rw [hread, readAnswer_idle (by exact hb) ha rfl, readStored_of_host, readData_idle hb]
  · refine ⟨_, s.draws, busRead_misaligned ha s, fun h => absurd ((aligned_iff a).mpr h) ha, fun _ => ⟨rfl, ?_⟩⟩
    change (busRead a (busRead a s)).answer = _
    rw [busRead_misaligned ha (busRead a s)]

/-- Settles O48: by the three kinds of busy read. -/
theorem readsWhileBusy : Obligations.ReadsWhileBusy := by
  intro s hb
  obtain ⟨hbusy, hdone, herr⟩ := statusWith_bits s ((Config.freeRead s.draws).extractLsb' 3 7)
  obtain ⟨hmid, -, hcode, -⟩ := statusWith_fields s ((Config.freeRead s.draws).extractLsb' 3 7)
  refine ⟨readAnswer_exact (r := .id) (by decide) (by decide) rfl s,
    readAnswer_exact (r := .ctrl) (by decide) (by decide) rfl s,
    readAnswer_exact (r := .cmd) (by decide) (by decide) rfl s,
    readAnswer_exact (r := .errinfo) (by decide) (by decide) rfl s,
    readAnswer_exact (r := .nodeSel) (by decide) (by decide) rfl s,
    readAnswer_exact (r := .actSel) (by decide) (by decide) rfl s,
    ⟨_, readAnswer_status_busy hb, hbusy.trans hb, hdone, herr, hcode, hmid⟩, fun r a hoff hany => ?_⟩
  obtain ⟨ha, hr⟩ := regAt_offset hoff
  exact busRead_free hb ha hr hany

/-- Settles O49: the map lists no register at a reserved offset, and writes reach six kinds of register only. -/
theorem reservedSpace : Obligations.ReservedSpace := by
  intro s a w hmod
  have ha : aligned a = true := (aligned_iff a).mpr hmod
  refine ⟨fun h => ?reserved, fun h => ?readOnly,
    ⟨_, readAnswer_exact (r := .ctrl) (by decide) (by decide) rfl s, ctrl_lt s⟩,
    fun hb => ⟨_, readAnswer_status_idle hb, ?_⟩⟩
  case reserved =>
    have hrange : a.toNat = 0x02C ∨ a.toNat = 0x03C ∨ (0x074 ≤ a.toNat ∧ a.toNat ≤ 0x3FC) ∨ 0x800 ≤ a.toNat :=
      h.imp (congrArg BitVec.toNat) (Or.imp_left (congrArg BitVec.toNat))
    exact ⟨readAnswer_exact ha (regAt_reserved ha hrange) rfl s, busWrite_ignored ha (by omega) (by omega) w s⟩
  case readOnly =>
    have hrange : a.toNat = 0x000 ∨ (0x010 ≤ a.toNat ∧ a.toNat ≤ 0x05C) ∨ a.toNat = 0x064 ∨ a.toNat = 0x068 ∨
        a.toNat = 0x070 :=
      h.imp (congrArg BitVec.toNat)
        (Or.imp_right (Or.imp (congrArg BitVec.toNat) (Or.imp (congrArg BitVec.toNat) (congrArg BitVec.toNat))))
    exact busWrite_ignored ha (by omega) (by omega) w s
  · obtain ⟨-, hlow, -, hhigh⟩ := statusWith_fields s s.statusMid
    obtain ⟨-, -, -, hmid, -⟩ := status_mid s
    exact ⟨hmid, hlow, hhigh⟩

/-- Settles O50: the map read from its offsets, and the offsets read from the map. -/
theorem registerMapIsExact : Obligations.RegisterMapIsExact := by
  refine ⟨fun r a h => ?_, fun a hmod => offset_regAt ((aligned_iff a).mpr hmod)⟩
  obtain ⟨ha, hr⟩ := regAt_offset h
  exact ⟨(aligned_iff a).mp ha, hr⟩

/-- Settles O51: the layout of the word, and the two bits a write acts on. -/
theorem statusRegister : Obligations.StatusRegister := by
  intro s w
  have hwrite : busWrite 0x008 0xF w s = { writeStatus w s with answer := some (.write .ok) } := by
    rw [busWrite_full (by decide), writeReg_status (by decide)]
  refine ⟨fun hb => ⟨_, readAnswer_status_idle hb, ?idle⟩, fun hb => ⟨_, readAnswer_status_busy hb, ?busy⟩,
    _, hwrite, rfl, writeStatus_done w s, fun h2 => ?cleared, fun h2 => writeStatus_sameError h2 s,
    writeStatus_results w s, writeStatus_busy w s, writeStatus_pending w s, writeStatus_ieDone w s, writeStatus_ieErr w s,
    writeStatus_nodeSel w s, writeStatus_actSel w s⟩
  case idle =>
    obtain ⟨hbusy, hdone, herr⟩ := statusWith_bits s s.statusMid
    obtain ⟨-, hlow, hcode, hhigh⟩ := statusWith_fields s s.statusMid
    obtain ⟨hactive, hvalid, hended, hmid, hphase⟩ := status_mid s
    exact ⟨hbusy.trans hb, hdone, herr, hactive, hvalid, hended, hmid, hphase, hlow, hcode, hhigh⟩
  case busy => exact (statusWith_bits s _).1.trans hb
  case cleared =>
    exact ⟨(writeStatus_err w s).trans (by rw [h2]; exact Bool.and_false _),
      (writeStatus_errcode w s).trans (if_pos h2), (writeStatus_errinfo w s).trans (if_pos h2)⟩

/-- Settles O55: an idle write is the store of one entry, a busy one is dropped, and no other command writes the table. -/
theorem freqTable : Obligations.FreqTable := by
  refine ⟨fun s sym w a ha => ⟨fun hb => ?idle, fun hb => ?busy⟩, fun _ _ _ => exec_freq⟩
  case idle =>
    obtain ⟨haligned, hreg⟩ := regAt_offset ha
    rw [busWrite_freq_idle hb ha]
    refine ⟨?_, fun other hne => readFreq_writeFreq_other hne w s, ?_, ?_, ?_⟩
    · rw [readAnswer_idle (by exact hb) haligned hreg]
      exact congrArg (fun v => some (Answer.read v .ok)) (readFreq_writeFreq_same sym w s)
    · simp [sameTree]
    · simp [sameExtractor]
    · simp [sameError]
  case busy =>
    obtain ⟨haligned, hreg⟩ := regAt_offset ha
    have hinfo : a.setWidth 32 = BitVec.ofNat 32 (0x400 + 4 * sym.toNat) := by
      cases ha
      rw [← freqOffset_toNat, BitVec.ofNat_toNat]
    rw [busWrite_busy haligned (.inr (.inr (.inr ⟨sym, hreg⟩))) hb, hinfo]
    exact ⟨raiseError_freq .., raiseError_recorded .busy _ s⟩

/-- Settles O57: the stored values of an idle block, and the invariant's bounds where a number is narrower than its list. -/
theorem resultRegisters : Obligations.ResultRegisters := by
  intro s hinv hb
  have h := hinv.builder
  obtain ⟨hleaves, -⟩ := leaves_internals h
  refine ⟨⟨_, readAnswer_idle hb (r := .nleaf) (by decide) (by decide), ?_⟩,
    ⟨_, readAnswer_idle hb (r := .nnode) (by decide) (by decide), ?_⟩,
    ⟨_, readAnswer_idle hb (r := .actlen) (by decide) (by decide), actLength_toNat h⟩,
    ⟨_, readAnswer_idle hb (r := .root) (by decide) (by decide), fun hp => ?_, fun hp => ?_⟩,
    readAnswer_idle hb (r := .total) (by decide) (by decide),
    readAnswer_idle hb (r := .errinfo) (by decide) (by decide),
    ⟨_, readAnswer_idle hb (r := .extIdx) (by decide) (by decide), BitVec.toNat_setWidth_of_le (by decide), ?_⟩,
    ⟨_, readAnswer_idle hb (r := .outSym) (by decide) (by decide), BitVec.toNat_setWidth_of_le (by decide)⟩,
    ⟨_, readAnswer_idle hb (r := .outLen) (by decide) (by decide), BitVec.toNat_setWidth_of_le (by decide)⟩,
    readAnswer_idle hb (r := .outCount) (by decide) (by decide)⟩
  · exact (BitVec.toNat_setWidth_of_le (by decide)).trans hleaves
  · exact (BitVec.toNat_setWidth_of_le (by decide)).trans (nnode_toNat h)
  · obtain ⟨-, hroot⟩ := phaseOk_tree h.phase hp
    rw [readStored, BitVec.toNat_setWidth_of_le (by decide), hroot]
  · rw [readStored, root_of_not_tree h.phase hp]
    rfl
  · rw [readStored, BitVec.toNat_setWidth_of_le (by decide)]
    exact extIdx_le hinv

end Sys2Proof.Machine
end

section
/-! PROOF. The host's side of the encode sequence (70_reset_and_hazards.md rule R195, 30_encoding.md rules R81 and R91): the
verdict a STATUS word gives, RUN of the extractor's commands, what GETTRIPLE reads of a latched triple, the loop of step 6 by
induction on the triples left, and the two claims on top of them. -/

namespace Sys2Proof.Machine

open Sys2Proof

/-! ### The verdict (R195, step 5) -/

/-- R195: a recorded OVERFLOW gives the verdict "too large". -/
theorem verdictOf_status_overflow {s : State} (he : s.err = true) (hc : s.errcode = .overflow) :
    verdictOf s.status = .tooLarge := by
  obtain ⟨-, -, herr⟩ := statusWith_bits s s.statusMid
  obtain ⟨-, -, hcode, -⟩ := statusWith_fields s s.statusMid
  exact if_pos ⟨herr.trans he, hcode.trans (congrArg ErrCode.bits hc)⟩

/-- R195: with no error recorded the verdict is by the phase. -/
theorem verdictOf_status_clear {s : State} (he : s.err = false) :
    (verdictOf s.status = .tree ↔ s.phase = .tree) ∧ (verdictOf s.status = .noTree ↔ s.phase = .empty) ∧
      verdictOf s.status ≠ .tooLarge := by
  obtain ⟨-, -, herr⟩ : _ ∧ _ ∧ s.status.getLsbD 2 = s.err := statusWith_bits s s.statusMid
  obtain ⟨-, -, -, -, hphase⟩ := status_mid s
  delta verdictOf
  rw [if_neg (fun h => Bool.false_ne_true (he.symm.trans (herr.symm.trans h.1))), hphase]
  cases s.phase <;> decide

/-- R65: the STATUS word a host reads of an idle block. -/
theorem readData_status {s : State} (hb : s.busy = false) : readData 0x008 s = s.status :=
  readData_idle hb 0x008

/-- R46: EXT_VALID and EXT_END as a host reads them of an idle block. -/
theorem readData_ext_flags {s : State} (hb : s.busy = false) :
    (readData 0x008 s).getLsbD 4 = s.extValid ∧ (readData 0x008 s).getLsbD 5 = s.extEnd := by
  obtain ⟨-, hvalid, hended, -⟩ := status_mid s
  rw [readData_status hb]
  exact ⟨hvalid, hended⟩

/-! ### RUN of a command (R91) -/

/-- R91: what a RUN adds to a command's rule: the engine's state at the completion, and the answer to the CMD write. -/
abbrev State.afterRun (i : Instr) (s : State) : State := s.withHost false (encode i) true (some (.write .ok))

/-- R91: RUN on an idle block is the command's rule on the issued state, and the completion. -/
theorem runCommand_of_issued {i : Instr} {s t : State} (hr : s.rst = false) (hb : s.busy = false)
    (h : exec i (s.withHost true (encode i) s.done (some (.write .ok))) =
      .next (t.withHost true (encode i) s.done (some (.write .ok)))) :
    runCommand i s = .next (t.afterRun i) := by
  have hexec : exec i { issue (encode i) s with answer := some (.write .ok) } =
      .next (t.withHost true (encode i) s.done (some (.write .ok))) := h
  rw [runCommand_idle hr hb, hexec]
  rfl

/-- R141: RUN EXT_START with a tree. -/
theorem runCommand_extStart {s : State} (hr : s.rst = false) (hb : s.busy = false) (hp : s.phase = .tree) :
    runCommand .extStart s = .next ((extBegin s).afterRun .extStart) :=
  runCommand_of_issued hr hb
    (exec_extStart_begin (s := s.withHost true (encode .extStart) s.done (some (.write .ok))) (.inl hp))

/-- R195, step 6: the block between two passes of the loop: idle, out of reset, the extractor active over the sequence `q`. -/
structure Extracting (q : List Triple) (s : State) : Prop where
  builder : BuilderInv s
  rst : s.rst = false
  idle : s.busy = false
  active : s.extActive = true
  seq : s.seq = some q

/-- R141: RUN EXT_START with a tree begins the extraction of its sequence. -/
theorem extracting_of_extStart {s : State} {q : List Triple} (hinv : BuilderInv s) (hr : s.rst = false)
    (hq : s.seq = some q) : Extracting q ((extBegin s).afterRun .extStart) :=
  ⟨builder_of_sameTree (s := s) ⟨rfl, rfl, rfl, rfl, rfl, rfl⟩ hinv, hr, rfl, rfl, hq⟩

/-- R142, R149: the triple a RUN EXT_NEXT latches leaves the extraction of the same sequence. -/
theorem Extracting.latch {s : State} {q : List Triple} (h : Extracting q s) (tr : Triple) :
    Extracting q ((latchTriple tr s).afterRun .extNext) :=
  ⟨builder_of_sameTree (s := s) ⟨rfl, rfl, rfl, rfl, rfl, rfl⟩ h.builder, h.rst, rfl, h.active, h.seq⟩

/-- R142: RUN EXT_NEXT before the end. -/
theorem Extracting.runCommand_triple {s : State} {q : List Triple} (h : Extracting q s) {tr : Triple}
    (htr : q[s.extIdx.toNat]? = some tr) :
    runCommand .extNext s = .next ((latchTriple tr s).afterRun .extNext) :=
  runCommand_of_issued h.rst h.idle (exec_extNext_triple
    (s := s.withHost true (encode .extNext) s.done (some (.write .ok))) h.active h.seq htr)

/-- R142: RUN EXT_NEXT past the last triple. -/
theorem Extracting.runCommand_end {s : State} {q : List Triple} (h : Extracting q s) (hend : q.length ≤ s.extIdx.toNat) :
    runCommand .extNext s = .next ((reportEnd s).afterRun .extNext) :=
  runCommand_of_issued h.rst h.idle (exec_extNext_end
    (s := s.withHost true (encode .extNext) s.done (some (.write .ok))) h.active h.seq hend)

/-- R106: SEED and BUILD of a table that does not fit record OVERFLOW over the cleared builder. -/
theorem exec_rebuild_of_overflow {s : State} {i : Instr} (hi : i = .seed ∨ i = .build) (h : ¬ fits s) :
    exec i s = .next (raiseError .overflow (encode i) (seedClear s)) := by
  rcases hi with rfl | rfl
  · exact congrArg Host.Outcome.next (seedBody_of_overflow h _)
  · exact exec_build_of_overflow h

/-! ### GETTRIPLE of a latched triple (R91) -/

/-- R91: the offsets of the code words GETTRIPLE reads are those of the first eight or the first one. -/
theorem codeOffsets_eq (long : Bool) :
    codeOffsets long =
      (List.range (if long then 8 else 1)).map fun k => 0x040 + 4 * (BitVec.ofNat 3 k).setWidth 12 := by
  cases long <;> decide

/-- R37: a host read of the k-th code word of an idle block. -/
theorem readData_outCode {s : State} (hb : s.busy = false) {k : Nat} (hk : k < 8) :
    readData (0x040 + 4 * (BitVec.ofNat 3 k).setWidth 12) s = s.outCode.extractLsb' (32 * k) 32 := by
  obtain ⟨-, hreg⟩ := outCode_offset (BitVec.ofNat 3 k)
  have hword : (BitVec.ofNat 3 k).toNat = k := Nat.mod_eq_of_lt hk
  rw [readData_idle hb, hreg, readStored, State.outCodeWord, hword]

/-- R35: a length of at most 255 bits reads as its number. -/
theorem codeLength_setWidth {bs : List Bool} (h : bs.length ≤ Config.maxCode) :
    (BitVec.ofNat 8 bs.length).setWidth 32 = BitVec.ofNat 32 bs.length := by
  apply BitVec.eq_of_toNat_eq
  have hlt : bs.length ≤ 255 := h
  rw [BitVec.toNat_setWidth_of_le (by decide), codeLength_toNat h, BitVec.toNat_ofNat, Nat.mod_eq_of_lt (by omega)]

/-- R91: the length GETTRIPLE reads of a code that fits. -/
theorem readoutOf_len_toNat {tr : Triple} (h : tr.code.length ≤ Config.maxCode) :
    (readoutOf tr).len.toNat = tr.code.length := by
  have hlt : tr.code.length ≤ 255 := h
  exact Nat.mod_eq_of_lt (by omega)

/-- R91, R142: GETTRIPLE reads the triple the output registers hold. -/
theorem readTriple_of_latched {s : State} {tr : Triple} (hb : s.busy = false) (hl : latched tr s)
    (hfits : tr.code.length ≤ Config.maxCode) : readTriple s = readoutOf tr := by
  obtain ⟨hsym, hlen, hcount, hcode⟩ := hl
  have hdsym : readData 0x030 s = tr.sym.setWidth 32 := by rw [← hsym]; exact readData_idle hb 0x030
  have hdlen : readData 0x034 s = BitVec.ofNat 32 tr.code.length := by
    rw [← codeLength_setWidth hfits, ← hlen]
    exact readData_idle hb 0x034
  have hdcount : readData 0x038 s = tr.count := by rw [← hcount]; exact readData_idle hb 0x038
  have hlong : (BitVec.ofNat 32 tr.code.length).toNat = tr.code.length := readoutOf_len_toNat hfits
  rw [readTriple, readoutOf, hdsym, hdlen, hdcount, hlong, codeOffsets_eq, List.map_map]
  congr 1
  simp only [decide_eq_true_eq]
  refine List.map_congr_left fun k hk => ?_
  have hk8 : k < 8 := (List.mem_range.mp hk).trans_le (by split <;> decide)
  rw [Function.comp_apply, readData_outCode hb hk8, hcode]

/-! ### The loop of step 6 (R195) -/

/-- R195: the pass in which the host reads a triple. -/
def Triple.pull (polls : Nat) (tr : Triple) : Pull := ⟨polls, some (decide (32 < tr.code.length))⟩

/-- R195, step 6: from an extractor that stands before the triples `rest` the loop reads those, one a pass, and ends with the
one pass that reads none. -/
theorem pullLoop_reads_rest {q : List Triple} (polls : Nat) (rest : List Triple) {s : State} {fuel : Nat}
    (h : Extracting q s) (hrest : q.drop s.extIdx.toNat = rest) (hfuel : rest.length < fuel) :
    pullLoop polls fuel s = some (rest.map (Triple.pull polls) ++ [⟨polls, none⟩], rest.map readoutOf) := by
  induction rest generalizing s fuel with
  | nil =>
    obtain ⟨fuel, rfl⟩ := Nat.exists_eq_add_one_of_ne_zero (Nat.ne_of_gt hfuel)
    obtain ⟨hvalid, hended⟩ := readData_ext_flags (s := (reportEnd s).afterRun .extNext) rfl
    exact pullLoop_end (h.runCommand_end (List.drop_eq_nil_iff.mp hrest)) hended hvalid
  | cons tr rest ih =>
    obtain ⟨fuel, rfl⟩ := Nat.exists_eq_add_one_of_ne_zero (Nat.ne_of_gt (Nat.zero_lt_of_lt hfuel))
    have htr : q[s.extIdx.toNat]? = some tr := by
      rw [← List.head?_drop, hrest]
      rfl
    have hnext : q.drop (s.extIdx + 1).toNat = rest := by
      rw [extIdx_succ h.builder h.seq htr, ← List.tail_drop, hrest]
      rfl
    have hfits := seq_code_length h.builder h.seq tr (List.mem_of_getElem? htr)
    have hloop := ih (h.latch tr) hnext (Nat.lt_of_succ_lt_succ hfuel)
    have hread := readTriple_of_latched (s := (latchTriple tr s).afterRun .extNext) rfl ⟨rfl, rfl, rfl, rfl⟩ hfits
    obtain ⟨hvalid, hended⟩ := readData_ext_flags (s := (latchTriple tr s).afterRun .extNext) rfl
    rw [pullLoop_succ (h.runCommand_triple htr) hended hvalid hloop, hread, readoutOf_len_toNat hfits]
    rfl

/-- R195, steps 5 and 6: with a tree the host reads the whole leaf sequence. -/
theorem hostExtraction_of_tree {s : State} {q : List Triple} (polls : Nat) (hinv : BuilderInv s) (hr : s.rst = false)
    (hb : s.busy = false) (he : s.err = false) (hp : s.phase = .tree) (hq : s.seq = some q) :
    hostExtraction polls s = some (⟨polls, q.map (Triple.pull polls) ++ [⟨polls, none⟩]⟩, q.map readoutOf) := by
  have hverdict : verdictOf (readData 0x008 s) = .tree := by
    rw [readData_status hb]
    exact (verdictOf_status_clear he).1.mpr hp
  have hloop := pullLoop_reads_rest polls q (extracting_of_extStart hinv hr hq) rfl
    (Nat.lt_succ_of_le (seq_length_le hinv hq))
  delta hostExtraction
  rw [hverdict]
  dsimp only
  rw [runCommand_extStart hr hb hp]
  dsimp only
  rw [hloop]

/-! ### The claims -/

/-- Settles O60: the verdict is read off STATUS, and the loop of step 6 is an induction on the triples left. -/
theorem encodeLoopReadsEveryTriple : Obligations.EncodeLoopReadsEveryTriple := by
  refine ⟨fun s hb he => ?verdict, fun s i hi hover hr hb he => ?overflow, fun s polls hinv hr hb he hp => ?extraction⟩
  case verdict =>
    rw [readData_status hb]
    exact verdictOf_status_clear he
  case overflow =>
    have hrun := runCommand_of_exec (hi.imp_right .inr) hr hb (exec_rebuild_of_overflow hi hover)
    refine ⟨_, hrun, ?_⟩
    rw [readData_status rfl]
    exact verdictOf_status_overflow (raiseError_err ..) ((raiseError_errcode ..).trans (if_neg (by simp [he])))
  case extraction =>
    obtain ⟨q, hq⟩ := seq_exists hinv.builder
    exact ⟨q, hq, hostExtraction_of_tree polls hinv.builder hr hb he hp hq⟩

/-- Settles O1: the words of four commands, and one word for each of the decoder's two rejections. -/
theorem fewCommandWordsDecode : Obligations.FewCommandWordsDecode := by
  have hop : decode 0x00000007 = .error .reservedOp := decode_reservedOp (by decide) (by decide)
  have hzero : decode 0x00000010 = .error .zeroFieldSet := decode_zeroFieldSet (by decide)
  exact ⟨decode_encode .nop, decode_encode .seed, decode_encode .build, decode_encode .extNext, hop, hzero⟩

end Sys2Proof.Machine
end
